-- ==== Sys2Proof/Word.lean ====
section
/-! DEFINITION. The word types of the unit (00_scope.md rules R8 and R10): every value is an unsigned bit vector. -/

namespace Sys2Proof

/-- The data unit: one byte per data-carrying command (rule R8). -/
abbrev Byte := BitVec 8

/-- A check value or a running CRC register (`WIDTH = 32`, rule R6). -/
abbrev Word32 := BitVec 32

/-- A command word (`CW = 16`, rule R8; format C of 30_encoding.md rule R70). -/
abbrev CmdWord := BitVec 16

/-- A response word (`RW = 16`, rule R8; format P of 30_encoding.md rule R76). -/
abbrev RspWord := BitVec 16

end Sys2Proof
end

