-- ==== Sys2Proof/Syntax.lean ====
section
/-! DEFINITION. The eight commands of the opcode map (30_encoding.md rule R72), one constructor per row of
spec/opcode_table.json. -/

namespace Sys2Proof

/-- A decoded command. The only operand any command has is the byte of `FEED` and `CHK` (rule R71). -/
inductive Instr where
  /-- `NOP`: do nothing (40_control.md rule R91). -/
  | nop
  /-- `GEN`: start a record in generate mode (40_control.md rule R92). -/
  | gen
  /-- `VER`: start a record in verify mode (40_control.md rule R93). -/
  | ver
  /-- `FEED b`: absorb one message byte (41_absorb.md rule R120). -/
  | feed (b : Byte)
  /-- `EMIT`: deliver the next check byte (42_generate.md rule R130). -/
  | emit
  /-- `CHK b`: take the next stored check byte (43_verify.md rule R140). -/
  | chk (b : Byte)
  /-- `END`: the host's byte source has no more bytes (40_control.md rule R94). -/
  | endInput
  /-- `RST`: soft reset (40_control.md rule R95). -/
  | rst
  deriving DecidableEq, Repr

end Sys2Proof
end

