-- ==== Sys2Proof/WellFormed.lean ====
section
/-! DEFINITION. Which instructions and which command words are well formed (30_encoding.md rules R70, R71 and R74). -/

namespace Sys2Proof

/-- Every instruction of the type is well formed: the operand is a byte, and "Every value 0x00 to 0xFF is a legal
operand" (rule R71). What can be ill formed is a command word: `wellFormedWord`. -/
def Instr.wellFormed : Instr → Bool
  | .nop => true
  | .gen => true
  | .ver => true
  | .feed _ => true
  | .emit => true
  | .chk _ => true
  | .endInput => true
  | .rst => true

/-- The `op` field names one of the eight commands: 0x8 to 0xF are reserved (rule R74 class (a)). -/
def opAssigned (w : CmdWord) : Bool := w.extractLsb' 12 4 < 8#4

/-- The `zero` field is `0000` (rule R70; rule R74 class (b)). -/
def zeroFieldClear (w : CmdWord) : Bool := w.extractLsb' 8 4 == 0#4

/-- The `imm8` field is zero unless the command is `FEED` (`op` 0x3) or `CHK` (`op` 0x5) (rule R70; rule R74 class (c)). -/
def operandAllowed (w : CmdWord) : Bool :=
  w.extractLsb' 0 8 == 0#8 || w.extractLsb' 12 4 == 3#4 || w.extractLsb' 12 4 == 5#4

/-- A word of format C that encodes a command: it is in none of the three illegal classes of rule R74. -/
def wellFormedWord (w : CmdWord) : Bool := opAssigned w && zeroFieldClear w && operandAllowed w

end Sys2Proof
end

