-- ==== Sys2Proof/Decode.lean ====
section
/-! DEFINITION. Decoding and encoding of command words (30_encoding.md rules R70 to R74; spec/opcode_table.json). -/

namespace Sys2Proof

/-- Why a word is illegal: the three classes of rule R74. -/
inductive IllegalClass where
  /-- Class (a): `op` in 0x8 to 0xF. -/
  | reservedOp
  /-- Class (b): `op` in 0x0 to 0x7 and `zero` not `0000`. -/
  | zeroFieldSet
  /-- Class (c): a command without operand whose `imm8` is not 0x00. -/
  | operandNotAllowed
  deriving DecidableEq, Repr

/-- What `decode` returns: one of the eight commands, or `ILLEGAL` with the class of rule R74 it belongs to. -/
inductive Decoded where
  | legal (i : Instr)
  | illegal (why : IllegalClass)
  deriving DecidableEq, Repr

/-- The `op` field, bits 15 to 12 (rule R70). -/
def opField (w : CmdWord) : BitVec 4 := w.extractLsb' 12 4

/-- The `zero` field, bits 11 to 8 (rule R70). -/
def zeroField (w : CmdWord) : BitVec 4 := w.extractLsb' 8 4

/-- The `imm8` field, bits 7 to 0, used as it stands (rules R70 and R71). -/
def imm8Field (w : CmdWord) : Byte := w.extractLsb' 0 8

/-- A word of format C from its two free fields; `zero` is `0000` (rule R70). -/
def formatC (op : BitVec 4) (imm8 : Byte) : CmdWord := op ++ 0#4 ++ imm8

/-- The class of rule R74 of a word that matches no command. -/
def illegalClass (w : CmdWord) : IllegalClass :=
  if 8#4 ≤ opField w then .reservedOp
  else if zeroField w ≠ 0#4 then .zeroFieldSet
  else .operandNotAllowed

/-- The decode function of rule R73, total on all 65536 words. -/
def decode (w : CmdWord) : Decoded :=
  if w = 0x0000#16 then .legal .nop
  else if w = 0x1000#16 then .legal .gen
  else if w = 0x2000#16 then .legal .ver
  else if w &&& 0xFF00#16 = 0x3000#16 then .legal (.feed (imm8Field w))
  else if w = 0x4000#16 then .legal .emit
  else if w &&& 0xFF00#16 = 0x5000#16 then .legal (.chk (imm8Field w))
  else if w = 0x6000#16 then .legal .endInput
  else if w = 0x7000#16 then .legal .rst
  else .illegal (illegalClass w)

/-- The instruction of a decoded word, if it is legal. -/
def Decoded.instr? : Decoded → Option Instr
  | .legal i => some i
  | .illegal _ => none

/-- A row of the opcode map: a word `w` is the row's command exactly when `w and mask = match` (rule R72). -/
structure OpcodeRow where
  mnemonic : String
  matchBits : CmdWord
  maskBits : CmdWord
  deriving DecidableEq, Repr

/-- A word satisfies a row's match and mask pair (rule R72). -/
def OpcodeRow.accepts (r : OpcodeRow) (w : CmdWord) : Bool := w &&& r.maskBits == r.matchBits

/-- The opcode map of rule R72, as spec/opcode_table.json has it. -/
def opcodeMap : List OpcodeRow :=
  [⟨"NOP", 0x0000#16, 0xFFFF#16⟩, ⟨"GEN", 0x1000#16, 0xFFFF#16⟩, ⟨"VER", 0x2000#16, 0xFFFF#16⟩,
   ⟨"FEED", 0x3000#16, 0xFF00#16⟩, ⟨"EMIT", 0x4000#16, 0xFFFF#16⟩, ⟨"CHK", 0x5000#16, 0xFF00#16⟩,
   ⟨"END", 0x6000#16, 0xFFFF#16⟩, ⟨"RST", 0x7000#16, 0xFFFF#16⟩]

/-- The mnemonic of a command (rule R72). -/
def mnemonic : Instr → String
  | .nop => "NOP"
  | .gen => "GEN"
  | .ver => "VER"
  | .feed _ => "FEED"
  | .emit => "EMIT"
  | .chk _ => "CHK"
  | .endInput => "END"
  | .rst => "RST"

/-- The operation code of a command (rule R72). -/
def opcode : Instr → BitVec 4
  | .nop => 0x0#4
  | .gen => 0x1#4
  | .ver => 0x2#4
  | .feed _ => 0x3#4
  | .emit => 0x4#4
  | .chk _ => 0x5#4
  | .endInput => 0x6#4
  | .rst => 0x7#4

/-- The `imm8` field of a command: its operand byte, and `00000000` for a command without operand (rule R70). -/
def operandField : Instr → Byte
  | .feed b => b
  | .chk b => b
  | .nop | .gen | .ver | .emit | .endInput | .rst => 0x00#8

/-- The word of a command (rules R70 and R72). -/
def encode (i : Instr) : CmdWord := formatC (opcode i) (operandField i)

/-- The command word of a table row's bits: bits 15 to 0 as spec/opcode_table.json numbers them, the bits at and above
`nbits` zero. Every command is one 16-bit word (rule R70). -/
def tableWord (nbits w : Nat) : CmdWord := BitVec.ofNat 16 (w % 2 ^ nbits)

/-- The instruction `decode` reads from a table row's bits; none where it is illegal. -/
def decodeTableWord (nbits w : Nat) : Option Instr := (decode (tableWord nbits w)).instr?

end Sys2Proof
end

