-- ==== Sys2Proof/Config.lean ====
section
/-! DEFINITION. The parameters of the CRC that the spec fixes (00_scope.md rules R6, R7 and R8; 41_absorb.md rule R110).
The open parameters of rule R9 (`LAT`, `RST_POLARITY`, `RST_SYNC`) are read by no rule and left out: log entries 3 and 4.
The spec leaves no value of the machine open, so there is no free value here (93_implementation_defined.md part 1). -/

namespace Sys2Proof.Config

/-- `INIT`, the document's "initial value all-ones" (rule R6). -/
abbrev initValue : Word32 := 0xFFFFFFFF#32

/-- `XOROUT`, the document's "final XOR all-ones" (rule R6). -/
abbrev xorOut : Word32 := 0xFFFFFFFF#32

/-- `POLY`, the generator polynomial in normal form (rule R7, the spec's decision D1). -/
abbrev poly : Word32 := 0x04C11DB7#32

/-- `POLY_R`, the generator polynomial in reflected form (rule R7, the spec's decision D1). -/
abbrev polyR : Word32 := 0xEDB88320#32

end Sys2Proof.Config
end

