-- ==== Sys2Proof/Machine/Operands.lean ====
section
/-! DEFINITION. The operand forms: the byte of `FEED` and `CHK` (30_encoding.md rule R71), the assembly of the stored check
and the disassembly of the delivered one (20_memory.md rules R53 and R56). -/

namespace Sys2Proof.Machine

/-- `zext_32(b)`: the operand byte as a 32-bit value (00_scope.md rule R11; 30_encoding.md rule R71). -/
def zext32 (b : Byte) : Word32 := b.setWidth 32

/-- `(EXP << 8)[31:0] or zext_32(b)`: the next stored check byte enters at the bottom and the top byte is lost
(43_verify.md rule R140). -/
def shiftIn (e : Word32) (b : Byte) : Word32 := (e <<< 8) ||| zext32 b

/-- The check byte that `IDX` selects, most significant first (42_generate.md rule R130; 20_memory.md rule R53). -/
def checkByte (c : Word32) (idx : BitVec 2) : Byte :=
  if idx = 0#2 then c.extractLsb' 24 8
  else if idx = 1#2 then c.extractLsb' 16 8
  else if idx = 2#2 then c.extractLsb' 8 8
  else c.extractLsb' 0 8

/-- The 32-bit value of four stored check bytes in wire order, the first most significant (20_memory.md rule R53). -/
def bigEndian (b0 b1 b2 b3 : Byte) : Word32 := b0 ++ b1 ++ b2 ++ b3

end Sys2Proof.Machine
end

