-- ==== Sys2Proof/Machine/Crc.lean ====
section
/-! DEFINITION. The CRC computation, its normative definition (41_absorb.md rules R112, R113, R116 and R117). -/

namespace Sys2Proof.Machine

/-- The bit step (rule R112): shift toward bit 0, and XOR the reflected polynomial in when a 1 was shifted out. -/
def bitstep (u : Word32) : Word32 :=
  if u.getLsbD 0 then (u >>> 1) ^^^ Config.polyR else u >>> 1

/-- `bitstep` applied `n` times in succession (rule R113 writes `bitstep^8`). -/
def bitsteps : Nat → Word32 → Word32
  | 0, u => u
  | n + 1, u => bitsteps n (bitstep u)

/-- The byte step (rule R113). -/
def absorb (a : Word32) (b : Byte) : Word32 := bitsteps 8 (a ^^^ zext32 b)

/-- The bytes of a message absorbed in order from the register value `a` (the loop of rule R116). -/
def absorbAll (a : Word32) (m : List Byte) : Word32 := m.foldl absorb a

/-- The fold over a message, from `INIT` (rule R116). -/
def fold (m : List Byte) : Word32 := absorbAll Config.initValue m

/-- The final XOR (rule R117), which the view `CRC_O` applies to `ACC` (10_state.md rule R25). -/
def finalXor (a : Word32) : Word32 := a ^^^ Config.xorOut

/-- The check of a message (rule R117). -/
def crc32 (m : List Byte) : Word32 := finalXor (fold m)

end Sys2Proof.Machine
end

