-- ==== Sys2Proof/Machine/State.lean ====
section
/-! DEFINITION. The state of the unit and of its two channels, the reasons a step could stop, and reset
(10_state.md rules R20 to R26, R30; 20_memory.md rules R50 to R52; 70_reset_and_hazards.md rules R180, R189, R191). -/

namespace Sys2Proof.Machine

/-- The eight values of `PH[2:0]`, in the order of their codes 0 to 7 (10_state.md rule R23). -/
inductive Phase where
  /-- 0: no record has been started since reset. -/
  | idle
  /-- 1: generate mode, absorbing message bytes. -/
  | gmsg
  /-- 2: generate mode, 1 to 3 check bytes emitted. -/
  | gout
  /-- 3: verify mode, absorbing message bytes. -/
  | vmsg
  /-- 4: verify mode, 1 to 3 stored check bytes taken. -/
  | vchk
  /-- 5: generate mode finished. -/
  | gdone
  /-- 6: verify mode finished; the stored check equalled the recomputed check. -/
  | vpass
  /-- 7: an error was raised; `CAUSE` says which. -/
  | fault
  deriving DecidableEq, Repr

/-- What the host can do that changes the unit (70_reset_and_hazards.md rule R189 (1) and (4)). Observing a response or a
view changes nothing and is no event. DESIGN CHOICE, log entries 1 and 4. -/
inductive HostEvent where
  /-- A command word is presented and accepted (20_memory.md rule R51). -/
  | command (w : CmdWord)
  /-- `rst` is asserted and released between two commands (70_reset_and_hazards.md rule R180). -/
  | hardwareReset
  /-- `rst` is asserted after the command word was accepted and before it was answered (rule R180). -/
  | resetDuring (w : CmdWord)
  deriving DecidableEq, Repr

/-- The five registers of the unit (10_state.md rule R20), and the model's view of the two channels (20_memory.md rule
R50; log entries 1 and 2). -/
structure State where
  /-- `ACC[31:0]`, the running CRC register, reflected, before the final XOR (rule R21). -/
  acc : Word32
  /-- `EXP[31:0]`, the stored check being assembled (rule R22). -/
  exp : Word32
  /-- `IDX[1:0]`, how many check bytes of the record have been transferred (rule R24). -/
  idx : BitVec 2
  /-- `PH[2:0]`, the phase (rule R23). -/
  ph : Phase
  /-- `CAUSE[2:0]`, the fault cause; 0 is no fault (rule R26). -/
  cause : BitVec 3
  /-- The MODEL's own: what the host does next, first event first (log entry 1). -/
  input : List HostEvent
  /-- The MODEL's own: the response words produced so far, oldest first (log entry 2). -/
  output : List RspWord
  deriving DecidableEq, Repr

/-- Reasons a step stops with a fault: NONE. "The unit never stops of its own accord" (70_reset_and_hazards.md rule
R191), and the four faults of the unit (60_exceptions.md rule R150) are next states in phase `FAULT` (rule R155). -/
inductive Fault where
  deriving DecidableEq, Repr

/-- Reasons a step is refused. -/
inductive Refusal where
  /-- Raised by exec's arm for an instruction that has no meaning yet; no arm raises it now. Safe: the step stops. -/
  | notModelled (mnemonic : String)
  deriving DecidableEq, Repr

/-- The unit right after reset (10_state.md rule R30), with nothing presented and no response produced. -/
def State.reset : State where
  acc := 0xFFFFFFFF#32
  exp := 0x00000000#32
  idx := 0#2
  ph := .idle
  cause := 0#3
  input := []
  output := []

end Sys2Proof.Machine
end

