-- ==== Sys2Proof/Machine/Ops.lean ====
section
/-! DEFINITION. The named operations over the registers and the response channel: responding, reset, opening a record,
raising a fault, answering in phase `FAULT` (30_encoding.md rules R75 to R78; 60_exceptions.md rules R150, R155, R157). -/

namespace Sys2Proof.Machine

/-- The four causes of 60_exceptions.md rule R150. -/
inductive Cause where
  | formatError
  | integrityError
  | protocolError
  | illegalCommand
  deriving DecidableEq, Repr

/-- The cause codes (60_exceptions.md rule R150); 0 means no fault. -/
def causeCode : Cause → BitVec 3
  | .formatError => 1#3
  | .integrityError => 2#3
  | .protocolError => 3#3
  | .illegalCommand => 4#3

/-- The four response kinds with what they carry (30_encoding.md rule R77). `err` carries the 3 bits of a cause code. -/
inductive Response where
  | ack
  | byte (b : Byte)
  | pass
  | err (code : BitVec 3)
  deriving DecidableEq, Repr

/-- A word of format P from its two free fields; `zero` is `0000` (30_encoding.md rule R76). -/
def formatP (kind : BitVec 4) (data : Byte) : RspWord := kind ++ 0#4 ++ data

/-- The word of a response (30_encoding.md rule R77). -/
def responseWord : Response → RspWord
  | .ack => formatP 0x0#4 0x00#8
  | .byte b => formatP 0x1#4 b
  | .pass => formatP 0x2#4 0x00#8
  | .err code => formatP 0xE#4 (code.setWidth 8)

/-- `respond W`: the command's one response goes out on the response channel, after every earlier one (00_scope.md rule R11;
20_memory.md rule R52). -/
def respond (r : Response) (s : State) : State := { s with output := s.output ++ [responseWord r] }

/-- Every register takes its reset value (10_state.md rule R30); the channels are no registers and stay. -/
def resetRegisters (s : State) : State :=
  { s with ph := .idle, acc := Config.initValue, exp := 0x00000000#32, idx := 0#2, cause := 0#3 }

/-- Hardware reset: the registers are reset and no response is produced (70_reset_and_hazards.md rule R180). -/
def takeHardwareReset (s : State) : State := resetRegisters s

/-- The register effect `GEN` and `VER` share: a new record begins in phase `p` (40_control.md rules R92 and R93). -/
def openRecord (p : Phase) (s : State) : State :=
  { s with acc := Config.initValue, exp := 0x00000000#32, idx := 0#2, ph := p }

/-- Fault entry, `raise X`: `PH` and `CAUSE` are written, the response is `ERR` with the cause, and nothing else changes
(60_exceptions.md rule R155). -/
def raise (c : Cause) (s : State) : State :=
  respond (.err (causeCode c)) { s with ph := .fault, cause := causeCode c }

/-- Phase `FAULT` is sticky: no register changes and the response is `ERR` with the recorded cause (30_encoding.md rule R75
step 2; 60_exceptions.md rule R157). -/
def answerFault (s : State) : State := respond (.err s.cause) s

/-- An accepted word that decodes to `ILLEGAL`: it raises IllegalCommand, but in phase `FAULT` the recorded cause is answered
(30_encoding.md rule R75 steps 2 and 3; 60_exceptions.md rule R154). -/
def rejectIllegal (s : State) : State :=
  match s.ph with
  | .fault => answerFault s
  | .idle | .gmsg | .gout | .vmsg | .vchk | .gdone | .vpass => raise .illegalCommand s

end Sys2Proof.Machine
end

