-- ==== Sys2Proof/Machine/Absorb.lean ====
section
/-! DEFINITION. The command `FEED` (41_absorb.md rule R120). -/

namespace Sys2Proof.Machine

/-- `FEED b` (rule R120): absorb one message byte, alike in generate and in verify mode. -/
def execFeed (b : Byte) (s : State) : Host.Outcome State Fault Refusal :=
  match s.ph with
  | .gmsg | .vmsg => .next (respond .ack { s with acc := absorb s.acc b })
  | .idle | .gout | .vchk | .gdone | .vpass => .next (raise .protocolError s)
  | .fault => .next (answerFault s)

end Sys2Proof.Machine
end

