-- ==== Sys2Proof/Machine/Control.lean ====
section
/-! DEFINITION. The control commands `NOP`, `GEN`, `VER`, `END` and `RST` (40_control.md rules R90 to R95). Each meaning covers
all eight phases; in phase `FAULT` all but `RST` answer the recorded cause (30_encoding.md rule R75 step 2). -/

namespace Sys2Proof.Machine

/-- `NOP` (rule R91). -/
def execNop (s : State) : Host.Outcome State Fault Refusal :=
  match s.ph with
  | .idle | .gmsg | .gout | .vmsg | .vchk | .gdone | .vpass => .next (respond .ack s)
  | .fault => .next (answerFault s)

/-- `GEN` (rule R92). -/
def execGen (s : State) : Host.Outcome State Fault Refusal :=
  match s.ph with
  | .idle | .gdone | .vpass => .next (respond .ack (openRecord .gmsg s))
  | .gmsg | .gout | .vmsg | .vchk => .next (raise .protocolError s)
  | .fault => .next (answerFault s)

/-- `VER` (rule R93). -/
def execVer (s : State) : Host.Outcome State Fault Refusal :=
  match s.ph with
  | .idle | .gdone | .vpass => .next (respond .ack (openRecord .vmsg s))
  | .gmsg | .gout | .vmsg | .vchk => .next (raise .protocolError s)
  | .fault => .next (answerFault s)

/-- `END` (rule R94): nothing between records, the close of a value-only generation in `GMSG`, FormatError inside a record
being verified, ProtocolError when some but not all check bytes have been emitted. -/
def execEnd (s : State) : Host.Outcome State Fault Refusal :=
  match s.ph with
  | .idle | .gdone | .vpass => .next (respond .ack s)
  | .gmsg => .next (respond .ack { s with ph := .gdone })
  | .vmsg | .vchk => .next (raise .formatError s)
  | .gout => .next (raise .protocolError s)
  | .fault => .next (answerFault s)

/-- `RST` (rule R95): handled before the phase is looked at, in all eight phases (30_encoding.md rule R75 step 1). -/
def execRst (s : State) : Host.Outcome State Fault Refusal :=
  .next (respond .ack (resetRegisters s))

end Sys2Proof.Machine
end

