-- ==== Sys2Proof/Machine/Generate.lean ====
section
/-! DEFINITION. The command `EMIT` (42_generate.md rule R130). -/

namespace Sys2Proof.Machine

/-- The registers after a check byte went out: the fourth one ends the record (rule R130). -/
def afterEmit (s : State) : State :=
  if s.idx = 3#2 then { s with idx := 0#2, ph := .gdone }
  else { s with idx := s.idx + 1#2, ph := .gout }

/-- `EMIT` (rule R130): deliver the check byte that `IDX` selects, of the check `ACC xor 0xFFFFFFFF`. -/
def execEmit (s : State) : Host.Outcome State Fault Refusal :=
  match s.ph with
  | .gmsg | .gout => .next (respond (.byte (checkByte (finalXor s.acc) s.idx)) (afterEmit s))
  | .idle | .vmsg | .vchk | .gdone | .vpass => .next (raise .protocolError s)
  | .fault => .next (answerFault s)

end Sys2Proof.Machine
end

