-- ==== Sys2Proof/Machine/Verify.lean ====
section
/-! DEFINITION. The command `CHK` (43_verify.md rule R140). -/

namespace Sys2Proof.Machine

/-- The comparison after the fourth stored check byte, `e` being the whole stored check (rule R140): a pass, or IntegrityError
with `EXP` and `IDX` already written, the one fault whose command completes register writes of its own. -/
def compareCheck (e : Word32) (s : State) : State :=
  if e = finalXor s.acc then respond .pass { s with exp := e, idx := 0#2, ph := .vpass }
  else raise .integrityError { s with exp := e, idx := 0#2 }

/-- A stored check byte taken in phase `VMSG` or `VCHK` (rule R140). -/
def takeCheckByte (b : Byte) (s : State) : State :=
  if s.idx = 3#2 then compareCheck (shiftIn s.exp b) s
  else respond .ack { s with exp := shiftIn s.exp b, idx := s.idx + 1#2, ph := .vchk }

/-- `CHK b` (rule R140). -/
def execChk (b : Byte) (s : State) : Host.Outcome State Fault Refusal :=
  match s.ph with
  | .vmsg | .vchk => .next (takeCheckByte b s)
  | .idle | .gmsg | .gout | .gdone | .vpass => .next (raise .protocolError s)
  | .fault => .next (answerFault s)

end Sys2Proof.Machine
end

