-- ==== Sys2Proof/Machine/Dispatch.lean ====
section
/-! DEFINITION. exec: one arm per command (30_encoding.md rule R75). -/

namespace Sys2Proof.Machine

def exec (i : Instr) (s : State) : Host.Outcome State Fault Refusal :=
  match i with
  | .nop => Sys2Proof.Machine.execNop s
  | .gen => Sys2Proof.Machine.execGen s
  | .ver => Sys2Proof.Machine.execVer s
  | .feed b => Sys2Proof.Machine.execFeed b s
  | .emit => Sys2Proof.Machine.execEmit s
  | .chk b => Sys2Proof.Machine.execChk b s
  | .endInput => Sys2Proof.Machine.execEnd s
  | .rst => Sys2Proof.Machine.execRst s

end Sys2Proof.Machine
end

