-- ==== Sys2Proof/Machine/Accept.lean ====
section
/-! DEFINITION. What the unit does with what the host presents: the dispatch of 30_encoding.md rule R75, hardware reset
(70_reset_and_hazards.md rule R180), and holding its state while nothing is presented (20_memory.md rule R51). -/

namespace Sys2Proof.Machine

/-- An accepted command word (30_encoding.md rule R75). The order of the rule's cases comes out of the parts: the exact `RST`
word decodes to `rst`, whose meaning looks at no phase; every other meaning, and `rejectIllegal`, looks for phase `FAULT`
first; an illegal word reaches no meaning. -/
def acceptWord (w : CmdWord) (s : State) : Host.Outcome State Fault Refusal :=
  match decode w with
  | .legal i => exec i s
  | .illegal _ => .next (rejectIllegal s)

/-- One event at the unit's inputs. A command that a hardware reset overtakes leaves none of its writes and no response
(70_reset_and_hazards.md rule R180). -/
def acceptEvent : HostEvent → State → Host.Outcome State Fault Refusal
  | .command w, s => acceptWord w s
  | .hardwareReset, s => .next (takeHardwareReset s)
  | .resetDuring _, s => .next (takeHardwareReset s)

/-- The next event is taken off the channel and executed completely; with none, the unit holds its state (20_memory.md rule
R51; log entry 1). -/
def runNextEvent (s : State) : Host.Outcome State Fault Refusal :=
  match s.input with
  | [] => .next s
  | e :: rest => acceptEvent e { s with input := rest }

/-- A command word presented ahead of whatever else the host was about to do (log entry 1). -/
def presentFirst (w : CmdWord) (s : State) : State := { s with input := .command w :: s.input }

end Sys2Proof.Machine
end

