-- ==== Sys2Proof/Machine/Step.lean ====
section
/-! DEFINITION. One step of the machine: one accepted command, or one hardware reset (30_encoding.md rules R75 and R82). -/

namespace Sys2Proof.Machine

/-- One step: the unit takes the next thing the host does (20_memory.md rule R51). -/
def step (s : State) : Host.Outcome State Fault Refusal := runNextEvent s

/-- The state in which the command word of a table row is what the host presents next. The unit fetches nothing (10_state.md
rule R27): a program is a list of commands the host presents (log entry 1). -/
def State.withFetchWord (s : State) (nbits w : Nat) : State := presentFirst (tableWord nbits w) s

end Sys2Proof.Machine
end

