-- ==== Sys2Proof/Machine/Assembler.lean ====
section
/-! DEFINITION. The assembler's lines and pseudo-instructions (30_encoding.md rules R80 and R81) and the command sequences of
the record operations (00_scope.md rule R12). "They exist only in the assembler; the unit sees only the eight commands." -/

namespace Sys2Proof.Machine

/-- The pseudo-instructions of rule R81. A text is the list of its ASCII codes. -/
inductive Pseudo where
  | feeds (text : List Byte)
  | feedx (bytes : List Byte)
  | emit4
  | chkw (check : Word32)
  | genrec (tag payload : List Byte)
  | verrec (tag payload : List Byte) (check : Word32)
  deriving DecidableEq, Repr

/-- One `FEED` per byte, in order (rule R81). -/
def feedAll (m : List Byte) : List Instr := m.map Instr.feed

/-- `EMIT`, four times (rule R81). -/
def emitFour : List Instr := [.emit, .emit, .emit, .emit]

/-- The four `CHK` of a 32-bit literal, big-endian (rule R81; 20_memory.md rule R53). -/
def chkWord (c : Word32) : List Instr :=
  [.chk (checkByte c 0#2), .chk (checkByte c 1#2), .chk (checkByte c 2#2), .chk (checkByte c 3#2)]

/-- The commands that generate the check of a message and emit it (00_scope.md rule R12; 42_generate.md rule R131). -/
def generateSequence (m : List Byte) : List Instr := .gen :: feedAll m ++ emitFour

/-- The commands that verify a message against stored check bytes (00_scope.md rule R12; 43_verify.md rule R141). -/
def verifySequence (m stored : List Byte) : List Instr := .ver :: feedAll m ++ stored.map Instr.chk

/-- The expansion of a pseudo-instruction (rule R81). -/
def expandPseudo : Pseudo → List Instr
  | .feeds text => feedAll text
  | .feedx bytes => feedAll bytes
  | .emit4 => emitFour
  | .chkw c => chkWord c
  | .genrec tag payload => .gen :: feedAll tag ++ feedAll payload ++ emitFour
  | .verrec tag payload c => .ver :: feedAll tag ++ feedAll payload ++ chkWord c

/-- The value of a hexadecimal digit; either letter case (rule R80; log entry 6). -/
def hexValue (c : Char) : Option Nat :=
  if '0'.toNat ≤ c.toNat ∧ c.toNat ≤ '9'.toNat then some (c.toNat - '0'.toNat)
  else if 'A'.toNat ≤ c.toNat ∧ c.toNat ≤ 'F'.toNat then some (c.toNat - 'A'.toNat + 10)
  else if 'a'.toNat ≤ c.toNat ∧ c.toNat ≤ 'f'.toNat then some (c.toNat - 'a'.toNat + 10)
  else none

/-- The digit of a value below 16, as the spec's examples write it. -/
def hexDigit (n : Nat) : Char := if n < 10 then Char.ofNat ('0'.toNat + n) else Char.ofNat ('A'.toNat + (n - 10))

/-- An operand, `0x` and two hexadecimal digits or a printable ASCII character in single quotes, and what follows it (rule
R80). -/
def parseOperand : List Char → Option (Byte × List Char)
  | '0' :: 'x' :: h :: l :: rest =>
    match hexValue h, hexValue l with
    | some hi, some lo => some (BitVec.ofNat 8 (16 * hi + lo), rest)
    | _, _ => none
  | '\'' :: c :: '\'' :: rest => if 0x20 ≤ c.toNat ∧ c.toNat ≤ 0x7E then some (BitVec.ofNat 8 c.toNat, rest) else none
  | _ => none

/-- Nothing but blanks, or a comment, stands to the end of the line (rule R80; log entry 6). -/
def endOfLine : List Char → Bool
  | [] => true
  | ' ' :: rest => endOfLine rest
  | ';' :: _ => true
  | _ => false

/-- A command without operand, if the line ends after it. -/
def bareCommand (i : Instr) (rest : List Char) : Option Instr := if endOfLine rest then some i else none

/-- A command with its operand, if the line ends after it. -/
def operandCommand (mk : Byte → Instr) (rest : List Char) : Option Instr :=
  match parseOperand rest with
  | some (b, tail) => if endOfLine tail then some (mk b) else none
  | none => none

/-- The command on one line of assembler text (rule R80); none where the line holds no command of the eight. -/
def assembleLine : List Char → Option Instr
  | 'N' :: 'O' :: 'P' :: rest => bareCommand .nop rest
  | 'G' :: 'E' :: 'N' :: rest => bareCommand .gen rest
  | 'V' :: 'E' :: 'R' :: rest => bareCommand .ver rest
  | 'F' :: 'E' :: 'E' :: 'D' :: ' ' :: rest => operandCommand .feed rest
  | 'E' :: 'M' :: 'I' :: 'T' :: rest => bareCommand .emit rest
  | 'C' :: 'H' :: 'K' :: ' ' :: rest => operandCommand .chk rest
  | 'E' :: 'N' :: 'D' :: rest => bareCommand .endInput rest
  | 'R' :: 'S' :: 'T' :: rest => bareCommand .rst rest
  | _ => none

/-- A byte as the assembler writes it, `0x` and two hexadecimal digits (rule R80). -/
def byteText (b : Byte) : List Char := ['0', 'x', hexDigit (b.toNat / 16), hexDigit (b.toNat % 16)]

/-- The line of a command in assembler text (rule R80). -/
def commandText : Instr → List Char
  | .nop => ['N', 'O', 'P']
  | .gen => ['G', 'E', 'N']
  | .ver => ['V', 'E', 'R']
  | .feed b => ['F', 'E', 'E', 'D', ' '] ++ byteText b
  | .emit => ['E', 'M', 'I', 'T']
  | .chk b => ['C', 'H', 'K', ' '] ++ byteText b
  | .endInput => ['E', 'N', 'D']
  | .rst => ['R', 'S', 'T']

end Sys2Proof.Machine
end

