-- ==== Sys2Proof/Machine/Flags.lean ====
section
/-! DEFINITION. The unit has no condition codes or flags, and no command writes one (10_state.md rule R28). What a host branches
on are the seven views, pure functions of the registers (10_state.md rule R25). -/

namespace Sys2Proof.Machine

/-- The code of a phase in `PH[2:0]` (10_state.md rule R23). -/
def phaseCode : Phase → BitVec 3
  | .idle => 0#3
  | .gmsg => 1#3
  | .gout => 2#3
  | .vmsg => 3#3
  | .vchk => 4#3
  | .gdone => 5#3
  | .vpass => 6#3
  | .fault => 7#3

/-- The phase with a code; all eight codes are defined (10_state.md rule R23). -/
def phaseOfCode (c : BitVec 3) : Phase :=
  if c = 0#3 then .idle
  else if c = 1#3 then .gmsg
  else if c = 2#3 then .gout
  else if c = 3#3 then .vmsg
  else if c = 4#3 then .vchk
  else if c = 5#3 then .gdone
  else if c = 6#3 then .vpass
  else .fault

/-- View `CRC_O` (rule R25). -/
def crcO (s : State) : Word32 := finalXor s.acc

/-- View `EXP_O` (rule R25). -/
def expO (s : State) : Word32 := s.exp

/-- View `PH_O` (rule R25). -/
def phO (s : State) : BitVec 3 := phaseCode s.ph

/-- View `IDX_O` (rule R25). -/
def idxO (s : State) : BitVec 2 := s.idx

/-- View `CAUSE_O` (rule R25). -/
def causeO (s : State) : BitVec 3 := s.cause

/-- View `PASS_O`: 1 exactly in phase `VPASS` (rule R25). -/
def passO (s : State) : BitVec 1 := if phaseCode s.ph = 6#3 then 1#1 else 0#1

/-- View `FAULT_O`: 1 exactly in phase `FAULT` (rule R25). -/
def faultO (s : State) : BitVec 1 := if phaseCode s.ph = 7#3 then 1#1 else 0#1

end Sys2Proof.Machine
end

