-- ==== Sys2Proof/Safety.lean ====
section
/-! DEFINITION. The terms the claims are stated in: the invariants of 10_state.md rule R29, the legal command words and the
response words the unit can produce, the register view of a state, runs of the machine over what the host presents. -/

namespace Sys2Proof.Machine

/-- The invariants (a) to (h) of 10_state.md rule R29. They hold at reset and every step keeps them; none of them is assumed
by a meaning. -/
structure RegInv (s : State) : Prop where
  /-- (a) `PH = FAULT` if and only if `CAUSE != 0`. -/
  faultIffCause : s.ph = .fault ↔ s.cause ≠ 0#3
  /-- (a) `CAUSE` is in 0 to 4. -/
  causeInRange : s.cause ≤ 4#3
  /-- (b) -/
  idxZero : s.ph ∈ [Phase.idle, .gmsg, .vmsg, .gdone, .vpass] → s.idx = 0#2
  /-- (c) -/
  idxNonzero : s.ph ∈ [Phase.gout, .vchk] → s.idx ≠ 0#2
  /-- (d) -/
  idleValues : s.ph = .idle → s.acc = 0xFFFFFFFF#32 ∧ s.exp = 0x00000000#32
  /-- (e), and the first half of (f) -/
  expZero : s.ph ∈ [Phase.gmsg, .gout, .gdone, .vmsg] → s.exp = 0x00000000#32
  /-- (f), second half: `EXP[31 : 8*IDX] = 0` -/
  expPartial : s.ph = .vchk → s.exp >>> (8 * s.idx.toNat) = 0#32
  /-- (g) -/
  passEqual : s.ph = .vpass → s.exp = s.acc ^^^ 0xFFFFFFFF#32
  /-- (h) -/
  mismatchDiffers : s.ph = .fault → s.cause = 2#3 → s.exp ≠ s.acc ^^^ 0xFFFFFFFF#32 ∧ s.idx = 0#2

/-- The 262 response words of 30_encoding.md rule R78. -/
def producedWord (w : RspWord) : Bool :=
  w == 0x0000#16 || (0x1000#16 ≤ w && w ≤ 0x10FF#16) || w == 0x2000#16 || (0xE001#16 ≤ w && w ≤ 0xE004#16)

/-- Every response produced so far is one of the words of 30_encoding.md rule R78. -/
def OutputInv (s : State) : Prop := ∀ w ∈ s.output, producedWord w = true

/-- The 518 legal command words (30_encoding.md rules R72 and R73). -/
def legalWords : List CmdWord :=
  [0x0000#16, 0x1000#16, 0x2000#16, 0x4000#16, 0x6000#16, 0x7000#16]
    ++ (List.range 256).map (fun k => BitVec.ofNat 16 (0x3000 + k))
    ++ (List.range 256).map (fun k => BitVec.ofNat 16 (0x5000 + k))

/-- The five registers of a state, in the order the spec writes one: `(PH, ACC, EXP, IDX, CAUSE)` (40_control.md rule R90). -/
def registers (s : State) : Phase × Word32 × Word32 × BitVec 2 × BitVec 3 := (s.ph, s.acc, s.exp, s.idx, s.cause)

/-- A state with the registers `(PH, ACC, EXP, IDX, CAUSE)`, nothing presented and no response yet (40_control.md rule R90). -/
def stateOf (ph : Phase) (acc exp : Word32) (idx : BitVec 2) (cause : BitVec 3) : State :=
  { acc := acc, exp := exp, idx := idx, ph := ph, cause := cause, input := [], output := [] }

/-- The phases between records, in which `GEN` and `VER` are legal (40_control.md rules R92 and R93). -/
def betweenRecords : List Phase := [.idle, .gdone, .vpass]

/-- A list of commands without its `NOP`s, which may stand anywhere (40_control.md rule R96). -/
def withoutNops (cs : List Instr) : List Instr := cs.filter (fun i => decide (i ≠ Instr.nop))

/-- `s` with a list of events presented ahead of what the host was about to do. -/
def presentEvents (es : List HostEvent) (s : State) : State := { s with input := es ++ s.input }

/-- The run of the machine over a finite list of events (70_reset_and_hazards.md rule R191): one step each. -/
def runEvents (es : List HostEvent) (s : State) : Host.Outcome State Fault Refusal :=
  Host.Core.run Sys2Proof.core es.length (presentEvents es s)

/-- The event by which the host presents a command. -/
def commandEvent (i : Instr) : HostEvent := .command (encode i)

/-- The run of the machine over a finite list of commands (70_reset_and_hazards.md rule R191): one step each. -/
def runCommands (cs : List Instr) (s : State) : Host.Outcome State Fault Refusal := runEvents (cs.map commandEvent) s

/-- The event is answered: a command that no hardware reset overtakes (20_memory.md rule R52). -/
def answered : HostEvent → Bool
  | .command _ => true
  | .hardwareReset => false
  | .resetDuring _ => false

/-- The response words to the commands of a list other than `NOP`, the words being listed command by command. -/
def answersButNop (cs : List Instr) (ws : List RspWord) : List RspWord :=
  ((cs.zip ws).filter (fun p => decide (p.1 ≠ Instr.nop))).map Prod.snd

/-- The four wire bytes of a check (20_memory.md rule R53). -/
def wireBytes (c : Word32) : List Byte :=
  [c.extractLsb' 24 8, c.extractLsb' 16 8, c.extractLsb' 8 8, c.extractLsb' 0 8]

/-- The `ERR` word with a cause code, `0xE00c` (30_encoding.md rule R77). -/
def errWord (c : BitVec 3) : RspWord := 0xE0#8 ++ c.setWidth 8

/-- The `BYTE` word with a check byte, `0x10bb` (30_encoding.md rule R77). -/
def byteWord (b : Byte) : RspWord := 0x10#8 ++ b

/-- In every state whose phase is listed the command raises the cause with that code: fault entry, and nothing else is
written (60_exceptions.md rule R155). -/
def raisesIn (i : Instr) (phases : List Phase) (code : BitVec 3) : Prop :=
  ∀ s : State, s.ph ∈ phases →
    exec i s = .next { s with ph := .fault, cause := code, output := s.output ++ [errWord code] }

/-- In phase `FAULT` the command changes no register and is answered with the recorded cause (60_exceptions.md rule R157). -/
def answersRecordedCause (i : Instr) : Prop :=
  ∀ s : State, s.ph = .fault → exec i s = .next { s with output := s.output ++ [errWord s.cause] }

/-- The legal commands that raise ProtocolError, phase by phase, as 60_exceptions.md rule R153 lists them by mnemonic. -/
def protocolErrorIn : Phase → List String
  | .idle => ["FEED", "EMIT", "CHK"]
  | .gmsg => ["GEN", "VER", "CHK"]
  | .gout => ["GEN", "VER", "FEED", "CHK", "END"]
  | .vmsg => ["GEN", "VER", "EMIT"]
  | .vchk => ["GEN", "VER", "FEED", "EMIT"]
  | .gdone => ["FEED", "EMIT", "CHK"]
  | .vpass => ["FEED", "EMIT", "CHK"]
  | .fault => []

/-- A verification passed: `PH = VPASS` "and nothing else" (70_reset_and_hazards.md rule R191). -/
def passed (s : State) : Bool := s.ph == .vpass

end Sys2Proof.Machine
end

