-- ==== Sys2Proof/Certificates/Slice0/Obligations.lean ====
section
/-! DEFINITION. The statements for the provers, from the spec's numbered rules. A statement whose rule the spec marks
`[derived: ...]` is a consequence the spec draws; its docstring says so. -/

open Sys2Proof Sys2Proof.Machine

/-! ### Reset, and the commands one by one -/

/-- 10_state.md rule R30: the registers and views after reset, the same after `RST` and after a hardware reset. -/
def Obligations.ResetGivesEveryRegisterItsValue : Prop :=
  registers State.reset = (.idle, 0xFFFFFFFF#32, 0x00000000#32, 0#2, 0#3) ∧
  (crcO State.reset = 0x00000000#32 ∧ expO State.reset = 0x00000000#32 ∧ phO State.reset = 0#3 ∧
    idxO State.reset = 0#2 ∧ causeO State.reset = 0#3 ∧ passO State.reset = 0#1 ∧ faultO State.reset = 0#1) ∧
  (∀ s : State, ∃ t, exec .rst s = .next t ∧ registers t = registers State.reset) ∧
  (∀ s : State, registers (takeHardwareReset s) = registers State.reset)

/-- 40_control.md rule R91: `NOP` writes no register and is answered `ACK` in all seven phases but `FAULT`. -/
def Obligations.NopOnlyAcknowledges : Prop :=
  (∀ s : State, s.ph ∈ [Phase.idle, .gmsg, .gout, .vmsg, .vchk, .gdone, .vpass] →
    exec .nop s = .next { s with output := s.output ++ [0x0000#16] }) ∧
  answersRecordedCause .nop ∧
  decode 0x0000#16 = .legal .nop

/-- 40_control.md rule R92: `GEN` starts a record in generate mode between records, and raises ProtocolError inside one. -/
def Obligations.GenStartsAGenerateRecord : Prop :=
  (∀ s : State, s.ph ∈ [Phase.idle, .gdone, .vpass] →
    exec .gen s = .next { s with acc := 0xFFFFFFFF#32, exp := 0x00000000#32, idx := 0#2, ph := .gmsg,
                                 output := s.output ++ [0x0000#16] }) ∧
  raisesIn .gen [.gmsg, .gout, .vmsg, .vchk] 3#3 ∧
  answersRecordedCause .gen ∧
  decode 0x1000#16 = .legal .gen

/-- 40_control.md rule R93: `VER` starts a record in verify mode between records, and raises ProtocolError inside one. -/
def Obligations.VerStartsAVerifyRecord : Prop :=
  (∀ s : State, s.ph ∈ [Phase.idle, .gdone, .vpass] →
    exec .ver s = .next { s with acc := 0xFFFFFFFF#32, exp := 0x00000000#32, idx := 0#2, ph := .vmsg,
                                 output := s.output ++ [0x0000#16] }) ∧
  raisesIn .ver [.gmsg, .gout, .vmsg, .vchk] 3#3 ∧
  answersRecordedCause .ver ∧
  decode 0x2000#16 = .legal .ver

/-- 41_absorb.md rule R120: `FEED` absorbs its byte into `ACC` alike in both message phases, and raises ProtocolError
elsewhere. -/
def Obligations.FeedAbsorbsOneByte : Prop :=
  (∀ (b : Byte) (s : State), s.ph ∈ [Phase.gmsg, .vmsg] →
    exec (.feed b) s = .next { s with acc := absorb s.acc b, output := s.output ++ [0x0000#16] }) ∧
  (∀ b : Byte, raisesIn (.feed b) [.idle, .gout, .vchk, .gdone, .vpass] 3#3) ∧
  (∀ b : Byte, answersRecordedCause (.feed b)) ∧
  (∀ b : Byte, decode (0x30#8 ++ b) = .legal (.feed b))

/-- 42_generate.md rule R130: `EMIT` delivers the check byte that `IDX` selects, most significant first; the fourth ends the
record; elsewhere it raises ProtocolError. The byte is written here in the rule's second form, `(C >> (8 * (3 - IDX)))[7:0]`,
and the last clause says that this is its first form. -/
def Obligations.EmitDeliversTheNextCheckByte : Prop :=
  (∀ s : State, s.ph ∈ [Phase.gmsg, .gout] → s.idx ≠ 3#2 →
    exec .emit s = .next
      { s with idx := s.idx + 1#2, ph := .gout,
               output := s.output ++ [byteWord (((s.acc ^^^ 0xFFFFFFFF#32) >>> (8 * (3 - s.idx.toNat))).setWidth 8)] }) ∧
  (∀ s : State, s.ph ∈ [Phase.gmsg, .gout] → s.idx = 3#2 →
    exec .emit s = .next
      { s with idx := 0#2, ph := .gdone,
               output := s.output ++ [byteWord ((s.acc ^^^ 0xFFFFFFFF#32).setWidth 8)] }) ∧
  raisesIn .emit [.idle, .vmsg, .vchk, .gdone, .vpass] 3#3 ∧
  answersRecordedCause .emit ∧
  decode 0x4000#16 = .legal .emit ∧
  (∀ c : Word32, [0, 1, 2, 3].map (fun k => (c >>> (8 * (3 - k))).setWidth 8) = wireBytes c)

/-- 43_verify.md rule R140: `CHK` shifts the byte into `EXP`; after the fourth it compares on all 32 bits and passes or raises
IntegrityError with `EXP` and `IDX` written; elsewhere it raises ProtocolError. -/
def Obligations.ChkTakesAByteAndComparesAfterTheFourth : Prop :=
  (∀ (b : Byte) (s : State), s.ph ∈ [Phase.vmsg, .vchk] → s.idx ≠ 3#2 →
    exec (.chk b) s = .next { s with exp := (s.exp <<< 8) ||| b.setWidth 32, idx := s.idx + 1#2, ph := .vchk,
                                     output := s.output ++ [0x0000#16] }) ∧
  (∀ (b : Byte) (s : State), s.ph ∈ [Phase.vmsg, .vchk] → s.idx = 3#2 →
    (s.exp <<< 8) ||| b.setWidth 32 = s.acc ^^^ 0xFFFFFFFF#32 →
    exec (.chk b) s = .next { s with exp := (s.exp <<< 8) ||| b.setWidth 32, idx := 0#2, ph := .vpass,
                                     output := s.output ++ [0x2000#16] }) ∧
  (∀ (b : Byte) (s : State), s.ph ∈ [Phase.vmsg, .vchk] → s.idx = 3#2 →
    (s.exp <<< 8) ||| b.setWidth 32 ≠ s.acc ^^^ 0xFFFFFFFF#32 →
    exec (.chk b) s = .next { s with exp := (s.exp <<< 8) ||| b.setWidth 32, idx := 0#2, ph := .fault, cause := 2#3,
                                     output := s.output ++ [0xE002#16] }) ∧
  (∀ b : Byte, raisesIn (.chk b) [.idle, .gmsg, .gout, .gdone, .vpass] 3#3) ∧
  (∀ b : Byte, answersRecordedCause (.chk b)) ∧
  (∀ b : Byte, decode (0x50#8 ++ b) = .legal (.chk b))

/-- 40_control.md rule R94: `END` changes nothing between records, closes a value-only generation, raises FormatError inside a
record being verified and ProtocolError in `GOUT`. -/
def Obligations.EndMeansWhatItsPhaseSays : Prop :=
  (∀ s : State, s.ph ∈ [Phase.idle, .gdone, .vpass] →
    exec .endInput s = .next { s with output := s.output ++ [0x0000#16] }) ∧
  (∀ s : State, s.ph = .gmsg →
    exec .endInput s = .next { s with ph := .gdone, output := s.output ++ [0x0000#16] }) ∧
  raisesIn .endInput [.vmsg, .vchk] 1#3 ∧
  raisesIn .endInput [.gout] 3#3 ∧
  answersRecordedCause .endInput ∧
  decode 0x6000#16 = .legal .endInput

/-- 40_control.md rule R95: `RST` puts every register to its reset value in every phase, is answered `ACK`, and is only the
exact word 0x7000. -/
def Obligations.RstResetsEveryRegister : Prop :=
  (∀ s : State, exec .rst s = .next { s with ph := .idle, acc := 0xFFFFFFFF#32, exp := 0x00000000#32, idx := 0#2,
                                             cause := 0#3, output := s.output ++ [0x0000#16] }) ∧
  (∀ w : CmdWord, decode w = .legal .rst ↔ w = 0x7000#16)

/-! ### The step -/

/-- 30_encoding.md rule R75: when the host presents a legal word, the step is exec of its instruction with that word taken off
the channel; an illegal word is rejected; and with nothing presented the unit holds its state (20_memory.md rule R51).
How the channel stands in the state is the model's own: log entry 1. -/
def Obligations.StepRunsTheDecodedInstruction : Prop :=
  (∀ (s : State) (w : CmdWord) (rest : List HostEvent) (i : Instr), s.input = .command w :: rest → decode w = .legal i →
    step s = exec i { s with input := rest }) ∧
  (∀ (s : State) (w : CmdWord) (rest : List HostEvent) (k : IllegalClass), s.input = .command w :: rest →
    decode w = .illegal k → step s = .next (rejectIllegal { s with input := rest })) ∧
  (∀ s : State, s.input = [] → step s = .next s)

/-- 70_reset_and_hazards.md rule R180: a hardware reset resets the registers and produces no response, and a command it
overtakes leaves nothing. How a reset arrives is the model's own: log entry 4. -/
def Obligations.HardwareResetWinsAndIsNotAnswered : Prop :=
  ∀ (s : State) (e : HostEvent) (rest : List HostEvent), answered e = false → s.input = e :: rest →
    step s = .next { acc := 0xFFFFFFFF#32, exp := 0x00000000#32, idx := 0#2, ph := .idle, cause := 0#3,
                     input := rest, output := s.output }

/-- 30_encoding.md rule R75: the dispatch of an accepted word, its four cases in their order, on every word and every state;
and every word has a next state in every state. -/
def Obligations.DispatchFollowsTheOrderOfTheRule : Prop :=
  (∀ (w : CmdWord) (s : State),
    acceptWord w s =
      if w = 0x7000#16 then
        .next { s with ph := .idle, acc := 0xFFFFFFFF#32, exp := 0x00000000#32, idx := 0#2, cause := 0#3,
                       output := s.output ++ [0x0000#16] }
      else if s.ph = .fault then .next { s with output := s.output ++ [errWord s.cause] }
      else match decode w with
        | .illegal _ => .next { s with ph := .fault, cause := 4#3, output := s.output ++ [0xE004#16] }
        | .legal i => exec i s) ∧
  (∀ (w : CmdWord) (s : State), ∃ t, acceptWord w s = .next t)

/-- 60_exceptions.md rule R155: whatever raises writes `PH`, `CAUSE` and the response, and nothing else but the `EXP` and `IDX`
of a mismatching fourth `CHK`. -/
def Obligations.FaultEntryWritesOnlyPhaseAndCause : Prop :=
  ∀ (w : CmdWord) (s t : State), s.ph ≠ .fault → acceptWord w s = .next t → t.ph = .fault →
    t.cause ∈ [1#3, 2#3, 3#3, 4#3] ∧ t.output = s.output ++ [errWord t.cause] ∧ t.acc = s.acc ∧ t.input = s.input ∧
    (t.cause ≠ 2#3 → t.exp = s.exp ∧ t.idx = s.idx) ∧
    (t.cause = 2#3 → ∃ b : Byte, decode w = .legal (.chk b) ∧ s.idx = 3#2 ∧
      t.exp = (s.exp <<< 8) ||| b.setWidth 32 ∧ t.idx = 0#2)

/-- 60_exceptions.md rule R157: in phase `FAULT` every word but the exact `RST` word leaves all registers and is answered with
the recorded cause. -/
def Obligations.FaultPhaseIsSticky : Prop :=
  ∀ (w : CmdWord) (s : State), s.ph = .fault → w ≠ 0x7000#16 →
    acceptWord w s = .next { s with output := s.output ++ [errWord s.cause] }

/-- 60_exceptions.md rule R159: the only ways out of phase `FAULT` are the `RST` word and a hardware reset, and both put every
register to its reset value. How a reset arrives is the model's own: log entry 4. -/
def Obligations.OnlyResetLeavesTheFaultPhase : Prop :=
  ∀ s t : State, s.ph = .fault → step s = .next t → t.ph ≠ .fault →
    (∃ e rest, s.input = e :: rest ∧ (e = .command 0x7000#16 ∨ answered e = false)) ∧
    registers t = registers State.reset

/-- 60_exceptions.md rule R151: FormatError is raised in exactly one way, by `END` in phase `VMSG` or `VCHK`. -/
def Obligations.FormatErrorIsRaisedExactlyByEndInsideAVerifiedRecord : Prop :=
  ∀ (w : CmdWord) (s t : State), s.ph ≠ .fault → acceptWord w s = .next t →
    (t.ph = .fault ∧ t.cause = 1#3 ↔ decode w = .legal .endInput ∧ s.ph ∈ [Phase.vmsg, .vchk])

/-- 60_exceptions.md rule R152: IntegrityError is raised in exactly one way, by the fourth `CHK` of a record on a mismatch. -/
def Obligations.IntegrityErrorIsRaisedExactlyByAMismatchingFourthChk : Prop :=
  ∀ (w : CmdWord) (s t : State), s.ph ≠ .fault → acceptWord w s = .next t →
    (t.ph = .fault ∧ t.cause = 2#3 ↔
      ∃ b : Byte, decode w = .legal (.chk b) ∧ s.ph ∈ [Phase.vmsg, .vchk] ∧ s.idx = 3#2 ∧
        (s.exp <<< 8) ||| b.setWidth 32 ≠ s.acc ^^^ 0xFFFFFFFF#32)

/-- 60_exceptions.md rule R153 (marked derived there): the exhaustive list of what raises ProtocolError. -/
def Obligations.ProtocolErrorIsRaisedExactlyAsListed : Prop :=
  ∀ (w : CmdWord) (s t : State), s.ph ≠ .fault → acceptWord w s = .next t →
    (t.ph = .fault ∧ t.cause = 3#3 ↔ ∃ i, decode w = .legal i ∧ mnemonic i ∈ protocolErrorIn s.ph)

/-- 60_exceptions.md rule R154: IllegalCommand is raised exactly by an illegal word, in any phase but `FAULT`, before the phase
is looked at. -/
def Obligations.IllegalCommandIsRaisedExactlyByAnIllegalWord : Prop :=
  ∀ (w : CmdWord) (s t : State), s.ph ≠ .fault → acceptWord w s = .next t →
    (t.ph = .fault ∧ t.cause = 4#3 ↔ ∃ k, decode w = .illegal k)

/-- 10_state.md rule R23: the eight codes, none reserved, and which command enters which phase. -/
def Obligations.PhasesAreEnteredAsTheTableSays : Prop :=
  ([Phase.idle, .gmsg, .gout, .vmsg, .vchk, .gdone, .vpass, .fault].map phaseCode =
    [0#3, 1#3, 2#3, 3#3, 4#3, 5#3, 6#3, 7#3]) ∧
  (∀ c : BitVec 3, phaseCode (phaseOfCode c) = c) ∧
  (∀ (i : Instr) (s t : State), exec i s = .next t → t.ph ≠ s.ph →
    (t.ph = .idle → i = .rst) ∧
    (t.ph = .gmsg → i = .gen) ∧
    (t.ph = .gout → i = .emit) ∧
    (t.ph = .vmsg → i = .ver) ∧
    (t.ph = .vchk → ∃ b : Byte, i = .chk b) ∧
    (t.ph = .gdone → i = .emit ∧ s.idx = 3#2 ∨ i = .endInput ∧ s.ph = .gmsg) ∧
    (t.ph = .vpass → ∃ b : Byte, i = .chk b ∧ s.idx = 3#2 ∧ t.exp = t.acc ^^^ 0xFFFFFFFF#32) ∧
    (t.ph = .fault → t.cause ≠ 0#3 ∧ t.output = s.output ++ [errWord t.cause]))

/-- 10_state.md rules R21, R22, R24, R26 and R33 (the last marked derived there), the frame of all eight commands: which
registers a command leaves as they were. -/
def Obligations.CommandsLeaveTheOtherRegisters : Prop :=
  ∀ (i : Instr) (s t : State), exec i s = .next t →
    (mnemonic i ∉ ["GEN", "VER", "FEED", "RST"] → t.acc = s.acc) ∧
    (mnemonic i ∉ ["GEN", "VER", "CHK", "RST"] → t.exp = s.exp) ∧
    (mnemonic i ∉ ["GEN", "VER", "EMIT", "CHK", "RST"] → t.idx = s.idx) ∧
    (mnemonic i ∉ ["RST"] → t.cause = s.cause ∨ s.ph ≠ .fault ∧ t.ph = .fault) ∧
    (mnemonic i ∈ ["NOP", "FEED"] → t.ph = s.ph ∨ t.ph = .fault) ∧
    t.input = s.input

/-- A verification passes in no other way: a step that enters `VPASS` executed the fourth `CHK` of a record with an equal
check (43_verify.md rule R140; 70_reset_and_hazards.md rule R191). -/
def Obligations.PassComesOnlyFromAMatchingFourthChk : Prop :=
  ∀ s t : State, step s = .next t → passed t = true → passed s = false →
    ∃ (b : Byte) (rest : List HostEvent), s.input = .command (0x50#8 ++ b) :: rest ∧ s.ph ∈ [Phase.vmsg, .vchk] ∧ s.idx = 3#2 ∧
      (s.exp <<< 8) ||| b.setWidth 32 = s.acc ^^^ 0xFFFFFFFF#32 ∧ t.output = s.output ++ [0x2000#16]

/-- 10_state.md rule R31: the response and the next state are functions of the five registers and the command word alone. -/
def Obligations.ResponseDependsOnRegistersAndWordAlone : Prop :=
  ∀ (w : CmdWord) (s₁ s₂ : State), registers s₁ = registers s₂ →
    ∃ t₁ t₂ r, acceptWord w s₁ = .next t₁ ∧ acceptWord w s₂ = .next t₂ ∧ registers t₁ = registers t₂ ∧
      t₁.output = s₁.output ++ [r] ∧ t₂.output = s₂.output ++ [r]

/-- 20_memory.md rule R58 (its last sentence): `NOP` is idempotent in every phase, `END` in `IDLE`, `GDONE` and `VPASS`, `RST`
everywhere. -/
def Obligations.NopEndAndRstAreIdempotent : Prop :=
  ∀ (i : Instr) (s t u : State), exec i s = .next t → exec i t = .next u →
    i = .nop ∨ i = .rst ∨ i = .endInput ∧ s.ph ∈ [Phase.idle, .gdone, .vpass] →
    registers u = registers t

/-- 70_reset_and_hazards.md rules R190 and R191: the unit never stops, every accepted command completes. -/
def Obligations.EveryStepHasANextState : Prop :=
  (∀ s : State, ∃ t, step s = .next t) ∧
  (∀ (es : List HostEvent) (s : State), ∃ t, runEvents es s = .next t ∧ t.input = s.input)

/-- 20_memory.md rule R52: exactly one response per accepted command, after the earlier ones, none for a hardware reset. How the
two channels stand in the state is the model's own: log entries 1 and 2. -/
def Obligations.EveryCommandGetsExactlyOneResponse : Prop :=
  (∀ (s t : State) (w : CmdWord) (rest : List HostEvent), s.input = .command w :: rest → step s = .next t →
    ∃ r, t.output = s.output ++ [r] ∧ t.input = rest) ∧
  (∀ (s t : State) (e : HostEvent) (rest : List HostEvent), s.input = e :: rest → answered e = false → step s = .next t →
    t.output = s.output ∧ t.input = rest) ∧
  (∀ s t : State, s.input = [] → step s = .next t → t.output = s.output) ∧
  (∀ (es : List HostEvent) (s t : State), runEvents es s = .next t →
    ∃ ws, t.output = s.output ++ ws ∧ ws.length = es.countP answered)

/-- 20_memory.md rule R60: commands take effect in order, each completely before the next, so a run of two lists is the run of
the second from where the run of the first ends. -/
def Obligations.RunsComposeInOrder : Prop :=
  ∀ (es fs : List HostEvent) (s t : State), runEvents es s = .next t → runEvents (es ++ fs) s = runEvents fs t

/-- 10_state.md rule R25: the seven views. -/
def Obligations.ViewsAreFunctionsOfTheRegisters : Prop :=
  ∀ s : State, crcO s = s.acc ^^^ 0xFFFFFFFF#32 ∧ expO s = s.exp ∧ phO s = phaseCode s.ph ∧ idxO s = s.idx ∧
    causeO s = s.cause ∧ (passO s = 1#1 ↔ phO s = 6#3) ∧ (faultO s = 1#1 ↔ phO s = 7#3)

/-! ### Invariants -/

/-- 10_state.md rule R29 and 30_encoding.md rule R78 (marked derived there): the register invariants hold at reset, and so does
the one on the response words, there because the model's list of responses is empty at reset, which is the model's own
choice: log entry 2. -/
def Obligations.ResetSatisfiesTheInvariants : Prop := RegInv State.reset ∧ OutputInv State.reset

/-- 10_state.md rule R29 (marked derived there): every step keeps the invariants, whatever the host presents. -/
def Obligations.EveryStepKeepsTheInvariants : Prop :=
  ∀ s t : State, RegInv s → step s = .next t → RegInv t

/-- 30_encoding.md rule R78 (marked derived there): the unit only ever responds with one of the 262 words. -/
def Obligations.EveryStepRespondsWithAProducedWord : Prop :=
  ∀ s t : State, RegInv s → OutputInv s → step s = .next t → OutputInv t

/-- 10_state.md rule R29 and 30_encoding.md rule R78 (marked derived there): both hold in every state reachable from reset by
any sequence of command words and hardware resets. How the two channels and a reset stand in the model is its own: log
entries 1, 2 and 4. -/
def Obligations.InvariantsHoldInEveryReachableState : Prop :=
  ∀ (es : List HostEvent) (t : State), runEvents es State.reset = .next t → RegInv t ∧ OutputInv t

/-! ### Encoding -/

/-- 30_encoding.md rule R72: the words of the opcode map, and the decode vectors of 95_test_vectors.md section 5. -/
def Obligations.DecodeReadsTheWrittenOutWords : Prop :=
  ([0x0000#16, 0x1000#16, 0x2000#16, 0x3061#16, 0x4000#16, 0x50EB#16, 0x6000#16, 0x7000#16].map decode =
    [.legal .nop, .legal .gen, .legal .ver, .legal (.feed 0x61#8), .legal .emit, .legal (.chk 0xEB#8),
     .legal .endInput, .legal .rst]) ∧
  ([0x8000#16, 0xE002#16, 0x3161#16, 0x7100#16, 0x0001#16, 0x7001#16].map decode =
    [.illegal .reservedOp, .illegal .reservedOp, .illegal .zeroFieldSet, .illegal .zeroFieldSet,
     .illegal .operandNotAllowed, .illegal .operandNotAllowed])

/-- Decode and encode agree on every well-formed instruction, its operand at every value (30_encoding.md rules R70 to R73). -/
def Obligations.DecodeOfEncodeIsTheInstruction : Prop :=
  ∀ i : Instr, i.wellFormed = true → decode (encode i) = .legal i

/-- Each legal word has one reading, and encoding that reading gives the word back: no bit of a word is dropped
(30_encoding.md rules R70 to R73). -/
def Obligations.EncodeOfDecodeIsTheWord : Prop :=
  ∀ (w : CmdWord) (i : Instr), decode w = .legal i → encode i = w

/-- 30_encoding.md rules R72 and R73: the match and mask pairs are disjoint, and a word decodes to a command exactly when it
satisfies that command's pair, its operand being the low byte where the mask leaves one. -/
def Obligations.OpcodeMapIsDisjointAndIsWhatDecodeReads : Prop :=
  opcodeMap.Pairwise (fun r q => ∀ w : CmdWord, ¬ (r.accepts w = true ∧ q.accepts w = true)) ∧
  (∀ (w : CmdWord) (i : Instr), decode w = .legal i ↔
    ∃ r ∈ opcodeMap, r.accepts w = true ∧ r.mnemonic = mnemonic i ∧
      operandField i = if r.maskBits = 0xFF00#16 then w.setWidth 8 else 0x00#8)

/-- 30_encoding.md rule R74: the illegal words are exactly those of the classes (a), (b) and (c). -/
def Obligations.IllegalWordsAreExactlyTheThreeClasses : Prop :=
  ∀ w : CmdWord,
    (decode w = .illegal .reservedOp ↔ 8 ≤ w.toNat / 4096) ∧
    (decode w = .illegal .zeroFieldSet ↔ w.toNat / 4096 < 8 ∧ w.toNat / 256 % 16 ≠ 0) ∧
    (decode w = .illegal .operandNotAllowed ↔
      w.toNat / 4096 ∈ [0, 1, 2, 4, 6, 7] ∧ w.toNat / 256 % 16 = 0 ∧ w.toNat % 256 ≠ 0) ∧
    ((∃ i, decode w = .legal i) ↔ wellFormedWord w = true)

/-- 30_encoding.md rule R73: the legal words are 518 in number, 6 single words and 2 families of 256. -/
def Obligations.LegalWordsAreFiveHundredAndEighteen : Prop :=
  legalWords.length = 518 ∧ legalWords.Nodup ∧ ∀ w : CmdWord, (∃ i, decode w = .legal i) ↔ w ∈ legalWords

/-- 30_encoding.md rules R76 and R77: the response words, their `zero` field clear. -/
def Obligations.ResponseWordsHaveFormatP : Prop :=
  responseWord .ack = 0x0000#16 ∧ (∀ b : Byte, responseWord (.byte b) = 0x1000#16 ||| b.setWidth 16) ∧
  responseWord .pass = 0x2000#16 ∧ (∀ c : BitVec 3, responseWord (.err c) = 0xE000#16 ||| c.setWidth 16) ∧
  (∀ r : Response, (responseWord r).extractLsb' 8 4 = 0#4)

/-- 30_encoding.md rule R80: the line the assembler writes for a command is read back as that command. The letter case in which
`commandText` writes the hexadecimal digits is the model's choice: log entry 6. -/
def Obligations.AssemblerReadsWhatItWrites : Prop := ∀ i : Instr, assembleLine (commandText i) = some i

/-- 20_memory.md rule R53: the check is big-endian both ways; the four bytes delivered, taken back in that order, give the check
again, whether concatenated or shifted into a cleared `EXP`. -/
def Obligations.WireOrderIsBigEndianBothWays : Prop :=
  (∀ c : Word32, [checkByte c 0#2, checkByte c 1#2, checkByte c 2#2, checkByte c 3#2] = wireBytes c) ∧
  (∀ c : Word32, (wireBytes c).foldl shiftIn 0#32 = c) ∧
  (∀ b0 b1 b2 b3 : Byte, [b0, b1, b2, b3].foldl shiftIn 0#32 = bigEndian b0 b1 b2 b3) ∧
  (∀ b0 b1 b2 b3 : Byte, wireBytes (bigEndian b0 b1 b2 b3) = [b0, b1, b2, b3])

/-! ### The computation -/

/-- 41_absorb.md rules R112, R113, R116 and R117: the normative definition of the check. -/
def Obligations.CheckIsTheBitSerialDefinition : Prop :=
  (∀ u : Word32, u.getLsbD 0 = true → bitstep u = (u >>> 1) ^^^ 0xEDB88320#32) ∧
  (∀ u : Word32, u.getLsbD 0 = false → bitstep u = u >>> 1) ∧
  (∀ (a : Word32) (b : Byte), absorb a b = bitstep^[8] (a ^^^ b.setWidth 32)) ∧
  fold [] = 0xFFFFFFFF#32 ∧
  (∀ (m : List Byte) (b : Byte), fold (m ++ [b]) = absorb (fold m) b) ∧
  (∀ m : List Byte, crc32 m = fold m ^^^ 0xFFFFFFFF#32)

/-- 41_absorb.md rule R118 (marked derived there): the check values it lists, the published value of the variant among them. -/
def Obligations.CheckValuesAreThePrintedOnes : Prop :=
  crc32 [] = 0x00000000#32 ∧
  crc32 [0x31#8, 0x32#8, 0x33#8, 0x34#8, 0x35#8, 0x36#8, 0x37#8, 0x38#8, 0x39#8] = 0xCBF43926#32 ∧
  crc32 [0x49#8, 0x45#8, 0x4E#8, 0x44#8] = 0xAE426082#32 ∧
  crc32 [0x61#8, 0x62#8, 0x43#8, 0x44#8] = 0x4368C97B#32 ∧
  crc32 [0x61#8, 0x62#8, 0x43#8, 0x44#8, 0x68#8, 0x65#8, 0x6C#8, 0x6C#8, 0x6F#8, 0x20#8, 0x77#8, 0x6F#8, 0x72#8, 0x6C#8,
    0x64#8] = 0x144A07EB#32 ∧
  crc32 [0x00#8] = 0xD202EF8D#32 ∧ crc32 [0xFF#8] = 0xFF000000#32 ∧
  crc32 [0x00#8, 0x00#8, 0x00#8, 0x00#8] = 0x2144DF1C#32 ∧ crc32 [0xFF#8, 0xFF#8, 0xFF#8, 0xFF#8] = 0xFFFFFFFF#32

/-- 41_absorb.md rules R114 and R115 (marked derived there): the printed table is the table of eight bit steps, and the table
form is the byte step. -/
def Obligations.TableFormIsTheByteStep : Prop :=
  crcTable.length = 256 ∧ (∀ i : Byte, tableEntry i = bitsteps 8 (i.setWidth 32)) ∧
  (∀ (a : Word32) (b : Byte), absorb a b = tableAbsorb a b)

/-- 41_absorb.md rule R121 (marked derived there): the printed equations are the byte step, bit by bit. -/
def Obligations.EquationFormIsTheByteStep : Prop :=
  ∀ (a : Word32) (b : Byte) (i : Nat), i < 32 → (absorb a b).getLsbD i = equationBit (a ^^^ b.setWidth 32) i

/-- 41_absorb.md rule R122 (marked there as general knowledge, checked by evaluation): the most-significant-bit-first form
computes the same check, and its reversed register is the fold at every byte boundary. -/
def Obligations.MsbFirstFormComputesTheSameCheck : Prop :=
  ∀ m : List Byte, crc32Msb m = crc32 m ∧ (msbFold m).reverse = fold m

/-- 41_absorb.md rule R123 (marked derived there): the fold is the remainder of polynomial division over the two-element field.
`D`, `I` and `G` are the rule's polynomials, and the sum on the right is its `R(x)` with `fold(M)`'s bit `i` at `x^(31-i)`. -/
def Obligations.FoldIsThePolynomialRemainder : Prop :=
  ∀ m : List Byte,
    let x : Polynomial (ZMod 2) := Polynomial.X
    let n := m.length
    let d := fun k => (m.getD (k / 8) 0#8).getLsbD (k % 8)
    let D := ∑ k ∈ Finset.range (8 * n), if d k then x ^ (8 * n - 1 - k) else 0
    let I := ∑ k ∈ Finset.range 32, x ^ k
    let G := x ^ 32 + x ^ 26 + x ^ 23 + x ^ 22 + x ^ 16 + x ^ 12 + x ^ 11 + x ^ 10 + x ^ 8 + x ^ 7 + x ^ 5 + x ^ 4 + x ^ 2
      + x + 1
    (D * x ^ 32 + I * x ^ (8 * n)).modByMonic G =
      ∑ i ∈ Finset.range 32, if (fold m).getLsbD i then x ^ (31 - i) else 0

/-- 41_absorb.md rule R119 (a) (marked derived there): the bit step and the eight bit steps are linear over XOR. -/
def Obligations.BitStepsAreLinear : Prop :=
  (∀ u v : Word32, bitstep (u ^^^ v) = bitstep u ^^^ bitstep v) ∧ bitstep 0#32 = 0#32 ∧
  (∀ u v : Word32, bitsteps 8 (u ^^^ v) = bitsteps 8 u ^^^ bitsteps 8 v) ∧ bitsteps 8 0#32 = 0#32

/-- 41_absorb.md rule R119 (b) (marked derived there): the bit step and the eight bit steps are bijections, the printed inverse
being the inverse of the bit step. -/
def Obligations.BitStepsAreBijective : Prop :=
  Function.Bijective bitstep ∧ Function.Bijective (bitsteps 8) ∧
  Function.LeftInverse bitstepInv bitstep ∧ Function.RightInverse bitstepInv bitstep

/-- 41_absorb.md rule R119 (c) and (d) (marked derived there): a message altered in one byte has another check, and the
difference is the byte's difference carried through the bit steps that remain. -/
def Obligations.OneAlteredByteChangesTheCheck : Prop :=
  ∀ (m : List Byte) (i : Nat) (h : i < m.length) (c : Byte), c ≠ m[i] →
    crc32 m ^^^ crc32 (m.set i c) = bitsteps (8 * (m.length - i)) ((m[i] ^^^ c).setWidth 32) ∧
    fold m ^^^ fold (m.set i c) = crc32 m ^^^ crc32 (m.set i c) ∧
    crc32 (m.set i c) ≠ crc32 m

/-- 41_absorb.md rule R119 (e) (marked derived there): three-message affinity. -/
def Obligations.CheckIsAffineOnThreeMessages : Prop :=
  ∀ a b c : List Byte, a.length = b.length → b.length = c.length →
    crc32 (xorMessages (xorMessages a b) c) = crc32 a ^^^ crc32 b ^^^ crc32 c

/-! ### Whole sequences of commands -/

/-- 42_generate.md rule R131 (marked derived there): generating, with `NOP`s anywhere. `answersButNop` are the answers to the
commands that are no `NOP`. -/
def Obligations.GenerateSequenceDeliversTheCheck : Prop :=
  ∀ (m : List Byte) (cs : List Instr) (s : State), RegInv s → s.ph ∈ betweenRecords →
    withoutNops cs = generateSequence m →
    ∃ ws, runCommands cs s = .next { s with ph := .gdone, acc := fold m, exp := 0x00000000#32, idx := 0#2, cause := 0#3,
                                            output := s.output ++ ws } ∧
      ws.length = cs.length ∧
      answersButNop cs ws = List.replicate (m.length + 1) 0x0000#16 ++ (wireBytes (crc32 m)).map byteWord ∧
      ∀ p ∈ cs.zip ws, p.1 = .nop → p.2 = 0x0000#16

/-- 42_generate.md rule R132 (marked derived there): value-only generation, `CRC_O` being the check of what was fed so far, and
`END` closing the record with it. -/
def Obligations.ValueOnlyGenerationShowsTheCheck : Prop :=
  ∀ (m : List Byte) (s : State), s.ph ∈ betweenRecords →
    ∃ t u, runCommands (.gen :: feedAll m) s = .next t ∧ t.ph = .gmsg ∧ crcO t = crc32 m ∧
      runCommands [.endInput] t = .next u ∧ u.ph = .gdone ∧ crcO u = crc32 m ∧
      u.output = s.output ++ List.replicate (m.length + 2) 0x0000#16

/-- 43_verify.md rule R141 (marked derived there): verifying, with `NOP`s anywhere before the last `CHK`: a pass if and only if
the stored bytes are the check, IntegrityError otherwise, and no third outcome. -/
def Obligations.VerifySequencePassesExactlyOnTheCheck : Prop :=
  ∀ (m : List Byte) (s0 s1 s2 s3 : Byte) (cs : List Instr) (s : State), s.ph ∈ betweenRecords →
    withoutNops cs = verifySequence m [s0, s1, s2] →
    runCommands (cs ++ [.chk s3]) s =
      .next (if bigEndian s0 s1 s2 s3 = crc32 m then
        { s with ph := .vpass, acc := fold m, exp := bigEndian s0 s1 s2 s3, idx := 0#2,
                 output := s.output ++ List.replicate cs.length 0x0000#16 ++ [0x2000#16] }
      else
        { s with ph := .fault, cause := 2#3, acc := fold m, exp := bigEndian s0 s1 s2 s3, idx := 0#2,
                 output := s.output ++ List.replicate cs.length 0x0000#16 ++ [0xE002#16] })

/-- 43_verify.md rule R142 (marked derived there): the bytes a generate sequence delivers pass a verify sequence fed the same
message, on any two units between records. -/
def Obligations.GeneratedCheckVerifies : Prop :=
  ∀ (m : List Byte) (s s' t : State), s.ph ∈ betweenRecords → s'.ph ∈ betweenRecords →
    runCommands (generateSequence m) s = .next t →
    ∃ t', runCommands (verifySequence m ((t.output.drop (s.output.length + m.length + 1)).map (fun w => w.setWidth 8))) s' =
        .next t' ∧ passed t' = true ∧ t'.output = s'.output ++ List.replicate (m.length + 4) 0x0000#16 ++ [0x2000#16]

/-- 43_verify.md rule R143 (marked derived there): (a) a message altered within one byte, (b) altered stored bytes: the
verification ends in `FAULT` with cause 2 and never passes. -/
def Obligations.CorruptionIsReportedNeverPassed : Prop :=
  (∀ (m : List Byte) (i : Nat) (h : i < m.length) (c : Byte) (s : State), c ≠ m[i] → s.ph ∈ betweenRecords →
    ∃ t, runCommands (verifySequence (m.set i c) (wireBytes (crc32 m))) s = .next t ∧ t.ph = .fault ∧ t.cause = 2#3) ∧
  (∀ (m stored : List Byte) (s : State), stored.length = 4 → stored ≠ wireBytes (crc32 m) → s.ph ∈ betweenRecords →
    ∃ t, runCommands (verifySequence m stored) s = .next t ∧ t.ph = .fault ∧ t.cause = 2#3)

/-- 43_verify.md rule R144 (marked derived there): a stored check cut short is FormatError, for every choice of the bytes; `EXP`
holds the bytes that arrived in its low bits and `IDX` their number. -/
def Obligations.TruncationIsFormatError : Prop :=
  ∀ (m stored : List Byte) (s : State), stored.length ≤ 3 → s.ph ∈ betweenRecords →
    ∃ t, runCommands (verifySequence m stored ++ [.endInput]) s = .next t ∧
      t.ph = .fault ∧ t.cause = 1#3 ∧ t.acc = fold m ∧ t.idx.toNat = stored.length ∧
      t.exp.toNat = stored.foldl (fun n b => 256 * n + b.toNat) 0 ∧
      t.output = s.output ++ List.replicate (m.length + 1 + stored.length) 0x0000#16 ++ [0xE001#16]
end

