-- ==== Sys2Proof/Laws/Crc.lean ====
section
/-! SUPPORT. The small lemmas of the CRC definitions (41_absorb.md rules R112 to R117). -/

namespace Sys2Proof.Machine

@[simp] theorem bitsteps_zero (u : Word32) : bitsteps 0 u = u := rfl

theorem bitsteps_succ (n : Nat) (u : Word32) : bitsteps (n + 1) u = bitsteps n (bitstep u) := rfl

/-- Bit steps add up. -/
theorem bitsteps_add (m n : Nat) (u : Word32) : bitsteps (m + n) u = bitsteps n (bitsteps m u) := by
  induction m generalizing u with
  | zero => simp
  | succ m ih => rw [Nat.succ_add, bitsteps_succ, bitsteps_succ, ih]

@[simp] theorem absorbAll_nil (a : Word32) : absorbAll a [] = a := rfl

@[simp] theorem absorbAll_cons (a : Word32) (b : Byte) (m : List Byte) :
    absorbAll a (b :: m) = absorbAll (absorb a b) m := rfl

theorem absorbAll_append (a : Word32) (m m' : List Byte) :
    absorbAll a (m ++ m') = absorbAll (absorbAll a m) m' := List.foldl_append ..

theorem finalXor_eq (a : Word32) : finalXor a = a ^^^ 0xFFFFFFFF#32 := rfl

/-- The final XOR undoes itself. -/
@[simp] theorem finalXor_finalXor (a : Word32) : finalXor (finalXor a) = a := by
  simp [finalXor]

end Sys2Proof.Machine
end

