-- ==== Sys2Proof/Laws/State.lean ====
section
/-! SUPPORT. What each named update of the state leaves in each field, one lemma per field, so that no proof unfolds a record
update. -/

namespace Sys2Proof.Machine

variable (s : State) (r : Response) (c : Cause) (p : Phase)

@[simp] theorem respond_acc : (respond r s).acc = s.acc := rfl
@[simp] theorem respond_exp : (respond r s).exp = s.exp := rfl
@[simp] theorem respond_idx : (respond r s).idx = s.idx := rfl
@[simp] theorem respond_ph : (respond r s).ph = s.ph := rfl
@[simp] theorem respond_cause : (respond r s).cause = s.cause := rfl
@[simp] theorem respond_input : (respond r s).input = s.input := rfl
@[simp] theorem respond_output : (respond r s).output = s.output ++ [responseWord r] := rfl

@[simp] theorem raise_acc : (raise c s).acc = s.acc := rfl
@[simp] theorem raise_exp : (raise c s).exp = s.exp := rfl
@[simp] theorem raise_idx : (raise c s).idx = s.idx := rfl
@[simp] theorem raise_ph : (raise c s).ph = .fault := rfl
@[simp] theorem raise_cause : (raise c s).cause = causeCode c := rfl
@[simp] theorem raise_input : (raise c s).input = s.input := rfl
@[simp] theorem raise_output : (raise c s).output = s.output ++ [responseWord (.err (causeCode c))] := rfl

@[simp] theorem answerFault_acc : (answerFault s).acc = s.acc := rfl
@[simp] theorem answerFault_exp : (answerFault s).exp = s.exp := rfl
@[simp] theorem answerFault_idx : (answerFault s).idx = s.idx := rfl
@[simp] theorem answerFault_ph : (answerFault s).ph = s.ph := rfl
@[simp] theorem answerFault_cause : (answerFault s).cause = s.cause := rfl
@[simp] theorem answerFault_input : (answerFault s).input = s.input := rfl
@[simp] theorem answerFault_output : (answerFault s).output = s.output ++ [responseWord (.err s.cause)] := rfl

@[simp] theorem openRecord_acc : (openRecord p s).acc = 0xFFFFFFFF#32 := rfl
@[simp] theorem openRecord_exp : (openRecord p s).exp = 0#32 := rfl
@[simp] theorem openRecord_idx : (openRecord p s).idx = 0#2 := rfl
@[simp] theorem openRecord_ph : (openRecord p s).ph = p := rfl
@[simp] theorem openRecord_cause : (openRecord p s).cause = s.cause := rfl
@[simp] theorem openRecord_input : (openRecord p s).input = s.input := rfl
@[simp] theorem openRecord_output : (openRecord p s).output = s.output := rfl

@[simp] theorem resetRegisters_acc : (resetRegisters s).acc = 0xFFFFFFFF#32 := rfl
@[simp] theorem resetRegisters_exp : (resetRegisters s).exp = 0#32 := rfl
@[simp] theorem resetRegisters_idx : (resetRegisters s).idx = 0#2 := rfl
@[simp] theorem resetRegisters_ph : (resetRegisters s).ph = .idle := rfl
@[simp] theorem resetRegisters_cause : (resetRegisters s).cause = 0#3 := rfl
@[simp] theorem resetRegisters_input : (resetRegisters s).input = s.input := rfl
@[simp] theorem resetRegisters_output : (resetRegisters s).output = s.output := rfl

@[simp] theorem takeHardwareReset_acc : (takeHardwareReset s).acc = 0xFFFFFFFF#32 := rfl
@[simp] theorem takeHardwareReset_exp : (takeHardwareReset s).exp = 0#32 := rfl
@[simp] theorem takeHardwareReset_idx : (takeHardwareReset s).idx = 0#2 := rfl
@[simp] theorem takeHardwareReset_ph : (takeHardwareReset s).ph = .idle := rfl
@[simp] theorem takeHardwareReset_cause : (takeHardwareReset s).cause = 0#3 := rfl
@[simp] theorem takeHardwareReset_input : (takeHardwareReset s).input = s.input := rfl
@[simp] theorem takeHardwareReset_output : (takeHardwareReset s).output = s.output := rfl

@[simp] theorem reset_acc : State.reset.acc = 0xFFFFFFFF#32 := rfl
@[simp] theorem reset_exp : State.reset.exp = 0#32 := rfl
@[simp] theorem reset_idx : State.reset.idx = 0#2 := rfl
@[simp] theorem reset_ph : State.reset.ph = .idle := rfl
@[simp] theorem reset_cause : State.reset.cause = 0#3 := rfl
@[simp] theorem reset_input : State.reset.input = [] := rfl
@[simp] theorem reset_output : State.reset.output = [] := rfl

end Sys2Proof.Machine
end

