-- ==== Sys2Proof/Laws/Ops.lean ====
section
/-! SUPPORT. What each shared operation, each meaning and the step can do, said once: the provers cite these instead of
unfolding. -/

namespace Sys2Proof.Machine

/-- The response words of 30_encoding.md rule R77, as numbers. -/
@[simp] theorem responseWord_ack : responseWord .ack = 0x0000#16 := rfl

@[simp] theorem responseWord_pass : responseWord .pass = 0x2000#16 := rfl

theorem responseWord_byte (b : Byte) : responseWord (.byte b) = 0x10#8 ++ b := by
  revert b; decide

theorem responseWord_err (c : BitVec 3) : responseWord (.err c) = 0xE0#8 ++ c.setWidth 8 := by
  revert c; decide

/-- An illegal word either finds the unit in phase `FAULT` or raises IllegalCommand. -/
theorem rejectIllegal_cases (s : State) :
    (s.ph = .fault ∧ rejectIllegal s = answerFault s) ∨ (s.ph ≠ .fault ∧ rejectIllegal s = raise .illegalCommand s) := by
  unfold rejectIllegal
  split <;> simp_all

/-- The index moves on, or the record ends. -/
theorem afterEmit_cases (s : State) :
    (s.idx = 3#2 ∧ afterEmit s = { s with idx := 0#2, ph := .gdone }) ∨
    (s.idx ≠ 3#2 ∧ afterEmit s = { s with idx := s.idx + 1#2, ph := .gout }) := by
  unfold afterEmit
  split <;> simp_all

/-- A stored check byte is one of the first three, or completes an equal check, or completes an unequal one. -/
theorem takeCheckByte_cases (b : Byte) (s : State) :
    (s.idx ≠ 3#2 ∧
      takeCheckByte b s = respond .ack { s with exp := shiftIn s.exp b, idx := s.idx + 1#2, ph := .vchk }) ∨
    (s.idx = 3#2 ∧ shiftIn s.exp b = finalXor s.acc ∧
      takeCheckByte b s = respond .pass { s with exp := shiftIn s.exp b, idx := 0#2, ph := .vpass }) ∨
    (s.idx = 3#2 ∧ shiftIn s.exp b ≠ finalXor s.acc ∧
      takeCheckByte b s = raise .integrityError { s with exp := shiftIn s.exp b, idx := 0#2 }) := by
  unfold takeCheckByte compareCheck
  split
  · split <;> simp_all
  · simp_all

/-- What a command can do, in the order of 30_encoding.md rule R75: reset; answer in phase `FAULT`; raise ProtocolError or
FormatError; or have the effect of its own rule in a phase that allows it. -/
inductive Effect (i : Instr) (s : State) : State → Prop where
  | reset : i = .rst → Effect i s (respond .ack (resetRegisters s))
  | sticky : i ≠ .rst → s.ph = .fault → Effect i s (answerFault s)
  | refused : i ≠ .rst → i ≠ .nop → s.ph ≠ .fault → Effect i s (raise .protocolError s)
  | truncated : i = .endInput → s.ph = .vmsg ∨ s.ph = .vchk → Effect i s (raise .formatError s)
  | nothing : i = .nop ∨ i = .endInput → s.ph ≠ .fault → Effect i s (respond .ack s)
  | opened (p : Phase) : i = .gen ∧ p = .gmsg ∨ i = .ver ∧ p = .vmsg → s.ph = .idle ∨ s.ph = .gdone ∨ s.ph = .vpass →
      Effect i s (respond .ack (openRecord p s))
  | absorbed (b : Byte) : i = .feed b → s.ph = .gmsg ∨ s.ph = .vmsg →
      Effect i s (respond .ack { s with acc := absorb s.acc b })
  | emitted : i = .emit → s.ph = .gmsg ∨ s.ph = .gout →
      Effect i s (respond (.byte (checkByte (finalXor s.acc) s.idx)) (afterEmit s))
  | taken (b : Byte) : i = .chk b → s.ph = .vmsg ∨ s.ph = .vchk → Effect i s (takeCheckByte b s)
  | closed : i = .endInput → s.ph = .gmsg → Effect i s (respond .ack { s with ph := .gdone })

/-- exec always answers a next state, and it is one of the effects above. -/
theorem exec_effect (i : Instr) (s : State) : ∃ t, exec i s = .next t ∧ Effect i s t := by
  cases i <;> simp only [exec, execNop, execGen, execVer, execFeed, execEmit, execChk, execEnd, execRst]
  case rst => exact ⟨_, rfl, .reset rfl⟩
  all_goals
    split
    all_goals refine ⟨_, rfl, ?_⟩
  all_goals first
    | exact .sticky (by simp) (by assumption)
    | exact .nothing (by simp) (by simp_all)
    | exact .opened _ (by simp) (by simp_all)
    | exact .absorbed _ rfl (by simp_all)
    | exact .emitted rfl (by simp_all)
    | exact .taken _ rfl (by simp_all)
    | exact .closed rfl (by simp_all)
    | exact .truncated rfl (by simp_all)
    | exact .refused (by simp) (by simp) (by simp_all)

/-- The inversion of exec: whatever next state it answers is one of the effects. -/
theorem effect_of_exec {i : Instr} {s t : State} (h : exec i s = .next t) : Effect i s t := by
  obtain ⟨t', h', e⟩ := exec_effect i s
  rw [h] at h'
  cases h'
  exact e

/-- What an accepted word does: a legal one runs its instruction, an illegal one is rejected. -/
theorem acceptWord_legal {w : CmdWord} {i : Instr} (h : decode w = .legal i) (s : State) :
    acceptWord w s = exec i s := by
  simp [acceptWord, h]

theorem acceptWord_illegal {w : CmdWord} {k : IllegalClass} (h : decode w = .illegal k) (s : State) :
    acceptWord w s = .next (rejectIllegal s) := by
  simp [acceptWord, h]

/-- What one step can be: nothing presented, an accepted word, or a hardware reset. -/
theorem step_cases (s : State) :
    (s.input = [] ∧ step s = .next s) ∨
    (∃ w rest, s.input = .command w :: rest ∧ step s = acceptWord w { s with input := rest }) ∨
    (∃ e rest, s.input = e :: rest ∧ (e = .hardwareReset ∨ ∃ w, e = .resetDuring w) ∧
      step s = .next (takeHardwareReset { s with input := rest })) := by
  unfold step runNextEvent
  split
  · exact .inl ⟨by assumption, rfl⟩
  · rename_i e rest h
    cases e with
    | command w => exact .inr (.inl ⟨w, rest, h, rfl⟩)
    | hardwareReset => exact .inr (.inr ⟨_, rest, h, .inl rfl, rfl⟩)
    | resetDuring w => exact .inr (.inr ⟨_, rest, h, .inr ⟨w, rfl⟩, rfl⟩)

end Sys2Proof.Machine
end

