-- ==== Sys2Proof/Laws/PerInstr.lean ====
section
/-! SUPPORT. A statement about every instruction as syntax: its word obeys format C (30_encoding.md rules R70 and R74). -/

namespace Sys2Proof.Laws.WordFormat

/-- The word of a well-formed instruction has the instruction's operation code, a clear `zero` field and the instruction's
operand field, and is in none of the illegal classes. -/
def Statement (i : Instr) : Prop :=
  i.wellFormed = true ∧ opField (encode i) = opcode i ∧ zeroField (encode i) = 0#4 ∧
    imm8Field (encode i) = operandField i ∧ wellFormedWord (encode i) = true

theorem nop : Statement .nop := by unfold Statement; decide

theorem gen : Statement .gen := by unfold Statement; decide

theorem ver : Statement .ver := by unfold Statement; decide

theorem feed (b : Byte) : Statement (.feed b) := by unfold Statement; revert b; decide

theorem emit : Statement .emit := by unfold Statement; decide

theorem chk (b : Byte) : Statement (.chk b) := by unfold Statement; revert b; decide

theorem endInput : Statement .endInput := by unfold Statement; decide

theorem rst : Statement .rst := by unfold Statement; decide

end Sys2Proof.Laws.WordFormat
end

