-- ==== Sys2Proof/Laws/Runs.lean ====
section
/-! SUPPORT. Runs, one event at a time: no meaning looks at what the host does next, so a run peels off its first event. -/

namespace Sys2Proof.Machine

/-- exec neither reads nor writes what the host does next. -/
theorem exec_input {i : Instr} {s t : State} (h : exec i s = .next t) (x : List HostEvent) :
    exec i { s with input := x } = .next { t with input := x } := by
  obtain ⟨acc, exp, idx, ph, cause, input, output⟩ := s
  cases i <;> cases ph <;>
    simp only [exec, execNop, execGen, execVer, execFeed, execEmit, execChk, execEnd, execRst, takeCheckByte, compareCheck,
      afterEmit] at h ⊢
  all_goals (try split at h)
  all_goals (try split at h)
  all_goals (cases h; first | rfl | simp_all [respond, raise])

/-- Accepting a word neither reads nor writes what the host does next. -/
theorem acceptWord_input {w : CmdWord} {s t : State} (h : acceptWord w s = .next t) (x : List HostEvent) :
    acceptWord w { s with input := x } = .next { t with input := x } := by
  unfold acceptWord at h ⊢
  split at h
  · exact exec_input h x
  · obtain ⟨acc, exp, idx, ph, cause, input, output⟩ := s
    cases ph <;> cases h <;> rfl

/-- Neither does an event. -/
theorem acceptEvent_input {e : HostEvent} {s t : State} (h : acceptEvent e s = .next t) (x : List HostEvent) :
    acceptEvent e { s with input := x } = .next { t with input := x } := by
  cases e with
  | command w => exact acceptWord_input h x
  | hardwareReset => cases h; rfl
  | resetDuring w => cases h; rfl

/-- Every event has a next state. -/
theorem acceptEvent_next (e : HostEvent) (s : State) : ∃ t, acceptEvent e s = .next t := by
  cases e with
  | command w =>
    unfold acceptEvent acceptWord
    dsimp only
    split
    · exact (exec_effect _ s).imp fun _ h => h.1
    · exact ⟨_, rfl⟩
  | hardwareReset => exact ⟨_, rfl⟩
  | resetDuring w => exact ⟨_, rfl⟩

/-- The run over no event. -/
@[simp] theorem runEvents_nil (s : State) : runEvents [] s = .next s := rfl

/-- The run over a first event and more. -/
theorem runEvents_cons {e : HostEvent} {es : List HostEvent} {s u : State} (h : acceptEvent e s = .next u) :
    runEvents (e :: es) s = runEvents es u := by
  have hin : { u with input := s.input } = u := by
    have := acceptEvent_input h s.input
    rw [show ({ s with input := s.input } : State) = s from rfl, h] at this
    exact (Host.Outcome.next.inj this).symm
  have hstep : core.step (presentEvents (e :: es) s) = .next { u with input := es ++ s.input } := acceptEvent_input h _
  unfold runEvents
  simp only [List.length_cons, Host.Core.run]
  rw [hstep]
  change Host.Core.run core es.length (presentEvents es { u with input := s.input }) = _
  rw [hin]

end Sys2Proof.Machine
end

