-- ==== Sys2Proof/Tests/Slice0.lean ====
section
/-! SUPPORT. The model's own tests. Expected values are the spec's: the examples in the rules and the vectors of
95_test_vectors.md, whose section each group names. -/

namespace Sys2Proof.Tests

open Sys2Proof.Machine

/-- What a command leaves in the registers, and the responses after it. -/
def afterExec (i : Instr) (s : State) : Option ((Phase × Word32 × Word32 × BitVec 2 × BitVec 3) × List RspWord) :=
  match exec i s with
  | .next t => some (registers t, t.output)
  | .fault _ => none
  | .refused _ => none

/-- What an accepted word leaves in the registers, and the responses after it. -/
def afterWord (w : CmdWord) (s : State) : Option ((Phase × Word32 × Word32 × BitVec 2 × BitVec 3) × List RspWord) :=
  match acceptWord w s with
  | .next t => some (registers t, t.output)
  | .fault _ => none
  | .refused _ => none

/-- What one step leaves in the registers, and the responses after it. -/
def afterStep (s : State) : Option ((Phase × Word32 × Word32 × BitVec 2 × BitVec 3) × List RspWord) :=
  match step s with
  | .next t => some (registers t, t.output)
  | .fault _ => none
  | .refused _ => none

/-! ### Well-formed words: one ill-formed word for each check (30_encoding.md rule R74) -/

theorem test_wf_reserved_op_refused : opAssigned 0x8000#16 = false ∧ wellFormedWord 0x8000#16 = false := by decide

theorem test_wf_zero_field_refused : zeroFieldClear 0x3161#16 = false ∧ wellFormedWord 0x3161#16 = false := by decide

theorem test_wf_operand_refused : operandAllowed 0x7001#16 = false ∧ wellFormedWord 0x7001#16 = false := by decide

theorem test_wf_legal_words : wellFormedWord 0x30FF#16 = true ∧ wellFormedWord 0x50EB#16 = true ∧ wellFormedWord 0x7000#16 = true := by
  decide

theorem test_wf_instructions : Instr.wellFormed (.feed 0xFF#8) = true ∧ Instr.wellFormed .rst = true := by decide

/-! ### Decoding: words written out bit by bit from the patterns of 30_encoding.md rule R72; 95_test_vectors.md section 5 -/

theorem test_decode_nop : decode 0b0000000000000000#16 = .legal .nop := by decide

theorem test_decode_gen : decode 0b0001000000000000#16 = .legal .gen := by decide

theorem test_decode_ver : decode 0b0010000000000000#16 = .legal .ver := by decide

theorem test_decode_feed : decode 0b0011000001100001#16 = .legal (.feed 0x61#8) := by decide

theorem test_decode_emit : decode 0b0100000000000000#16 = .legal .emit := by decide

theorem test_decode_chk : decode 0b0101000011101011#16 = .legal (.chk 0xEB#8) := by decide

theorem test_decode_end : decode 0b0110000000000000#16 = .legal .endInput := by decide

theorem test_decode_rst : decode 0b0111000000000000#16 = .legal .rst := by decide

theorem test_decode_illegal :
    [0x9061#16, 0xFFFF#16, 0x0100#16, 0x5F00#16, 0x6010#16, 0x20FF#16].map decode =
      [.illegal .reservedOp, .illegal .reservedOp, .illegal .zeroFieldSet, .illegal .zeroFieldSet,
       .illegal .operandNotAllowed, .illegal .operandNotAllowed] := by decide

theorem test_encode_feed : encode (.feed 0x61#8) = 0x3061#16 := by decide

theorem test_table_word : decodeTableWord 16 0x50EB = some (.chk 0xEB#8) ∧ decodeTableWord 16 0x4001 = none := by decide

/-! ### One or two vectors per command (95_test_vectors.md section 6) -/

theorem test_nop_keeps_index :
    afterExec .nop (stateOf .gout 0xEBB5F814 0 2 0) = some ((.gout, 0xEBB5F814#32, 0#32, 2#2, 0#3), [0x0000#16]) := by decide

theorem test_nop_in_fault :
    afterExec .nop (stateOf .fault 0xEBB5F814 0x144A07EA 0 2) =
      some ((.fault, 0xEBB5F814#32, 0x144A07EA#32, 0#2, 2#3), [0xE002#16]) := by decide

theorem test_gen_clears_exp :
    afterExec .gen (stateOf .vpass 0xEBB5F814 0x144A07EB 0 0) =
      some ((.gmsg, 0xFFFFFFFF#32, 0#32, 0#2, 0#3), [0x0000#16]) := by decide

theorem test_gen_inside_a_record :
    afterExec .gen (stateOf .gout 0xEBB5F814 0 3 0) = some ((.fault, 0xEBB5F814#32, 0#32, 3#2, 3#3), [0xE003#16]) := by decide

theorem test_ver_next_record :
    afterExec .ver (stateOf .vpass 0xEBB5F814 0x144A07EB 0 0) =
      some ((.vmsg, 0xFFFFFFFF#32, 0#32, 0#2, 0#3), [0x0000#16]) := by decide

theorem test_ver_inside_a_record :
    afterExec .ver (stateOf .gmsg 0xBC973684 0 0 0) = some ((.fault, 0xBC973684#32, 0#32, 0#2, 3#3), [0xE003#16]) := by decide

theorem test_feed_first_byte :
    afterExec (.feed 0x61) (stateOf .gmsg 0xFFFFFFFF 0 0 0) =
      some ((.gmsg, 0x174841BC#32, 0#32, 0#2, 0#3), [0x0000#16]) := by decide

theorem test_feed_low_byte_cancels :
    afterExec (.feed 0x65) (stateOf .vmsg 0xA9003965 0 0 0) =
      some ((.vmsg, 0x00A90039#32, 0#32, 0#2, 0#3), [0x0000#16]) := by decide

theorem test_emit_first_byte :
    afterExec .emit (stateOf .gmsg 0xEBB5F814 0 0 0) = some ((.gout, 0xEBB5F814#32, 0#32, 1#2, 0#3), [0x1014#16]) := by decide

theorem test_emit_fourth_byte :
    afterExec .emit (stateOf .gout 0xEBB5F814 0 3 0) = some ((.gdone, 0xEBB5F814#32, 0#32, 0#2, 0#3), [0x10EB#16]) := by decide

theorem test_chk_fourth_byte_passes :
    afterExec (.chk 0xEB) (stateOf .vchk 0xEBB5F814 0x00144A07 3 0) =
      some ((.vpass, 0xEBB5F814#32, 0x144A07EB#32, 0#2, 0#3), [0x2000#16]) := by decide

theorem test_chk_mismatch_writes_exp_and_idx :
    afterExec (.chk 0xEB) (stateOf .vchk 0xEBB5F814 0x00154A07 3 0) =
      some ((.fault, 0xEBB5F814#32, 0x154A07EB#32, 0#2, 2#3), [0xE002#16]) := by decide

theorem test_end_truncated :
    afterExec .endInput (stateOf .vchk 0xEBB5F814 0x0000144A 2 0) =
      some ((.fault, 0xEBB5F814#32, 0x0000144A#32, 2#2, 1#3), [0xE001#16]) := by decide

theorem test_end_closes_generation :
    afterExec .endInput (stateOf .gmsg 0xEBB5F814 0 0 0) =
      some ((.gdone, 0xEBB5F814#32, 0#32, 0#2, 0#3), [0x0000#16]) := by decide

theorem test_rst_leaves_fault :
    afterExec .rst (stateOf .fault 0x2A3B27D4 0x144A07EB 0 2) =
      some ((.idle, 0xFFFFFFFF#32, 0#32, 0#2, 0#3), [0x0000#16]) := by decide

/-! ### Illegal words and faults (95_test_vectors.md sections 6.8 and 7) -/

theorem test_illegal_before_phase :
    afterWord 0x3161 (stateOf .gout 0xEBB5F814 0 2 0) = some ((.fault, 0xEBB5F814#32, 0#32, 2#2, 4#3), [0xE004#16]) := by decide

theorem test_illegal_in_fault_keeps_cause :
    afterWord 0xFFFF (stateOf .fault 0xEBB5F814 0x0000144A 2 1) =
      some ((.fault, 0xEBB5F814#32, 0x0000144A#32, 2#2, 1#3), [0xE001#16]) := by decide

theorem test_inexact_rst_resets_nothing :
    afterWord 0x7001 (stateOf .fault 0xEBB5F814 0 0 4) = some ((.fault, 0xEBB5F814#32, 0#32, 0#2, 4#3), [0xE004#16]) := by decide

/-! ### The step: a command placed at reset, nothing presented, hardware reset (95_test_vectors.md section 7) -/

theorem test_step_runs_the_placed_word :
    afterStep (State.reset.withFetchWord 16 0x1000) = some ((.gmsg, 0xFFFFFFFF#32, 0#32, 0#2, 0#3), [0x0000#16]) := by decide

theorem test_step_without_input_holds : afterStep State.reset = some (registers State.reset, []) := by decide

theorem test_reset_overtakes_feed :
    afterStep { stateOf .gmsg 0xFFFFFFFF 0 0 0 with input := [.resetDuring 0x3061] } = some (registers State.reset, []) := by
  decide

/-! ### The computation (41_absorb.md rules R112, R113; 95_test_vectors.md section 3) -/

theorem test_bitstep :
    [0x00000001#32, 0x00000002#32, 0xFFFFFFFF#32, 0xDB710641#32].map bitstep =
      [0xEDB88320#32, 0x00000001#32, 0x92477CDF#32, 0x80000000#32] := by decide

theorem test_absorb : absorb 0x12345678#32 0x9A#8 = 0x4E16B702#32 ∧ absorb 0xDEADBEEF#32 0x42#8 = 0xA8B972EB#32 := by decide

theorem test_table_entry : tableEntry 97#8 = 0x3AB551CE#32 ∧ tableEntry 255#8 = 0x2D02EF8D#32 := by decide +kernel

theorem test_msb_form : msbFold [0x61#8] = 0x3D8212E8#32 := by decide +kernel

theorem test_views_in_fault :
    let s := stateOf .fault 0x2A3B27D4 0x144A07EB 0 2
    (crcO s, expO s, phO s, idxO s, causeO s, passO s, faultO s) =
      (0xD5C4D82B#32, 0x144A07EB#32, 7#3, 0#2, 2#3, 0#1, 1#1) := by decide

/-! ### Assembler (30_encoding.md rules R80 and R81) -/

theorem test_assemble_quoted : assembleLine ['F', 'E', 'E', 'D', ' ', '\'', 'a', '\'', ' ', ';'] = some (.feed 0x61#8) := by
  decide

theorem test_chkw : expandPseudo (.chkw 0x144A07EB#32) = [.chk 0x14#8, .chk 0x4A#8, .chk 0x07#8, .chk 0xEB#8] := by decide

/-! ### Witnesses: states and operands that meet the hypotheses of each statement, clause by clause -/

/-- For the legal clauses of `GEN`, `VER` and `END` and for every statement over the phases between records. -/
theorem test_witness_between_records :
    (stateOf .idle 0xFFFFFFFF 0 0 0).ph ∈ betweenRecords ∧ (stateOf .gdone 0xBC973684 0 0 0).ph ∈ [Phase.idle, .gdone, .vpass] ∧
      (stateOf .vpass 0xEBB5F814 0x144A07EB 0 0).ph ∈ betweenRecords := by decide

/-- For NopOnlyAcknowledges. -/
theorem test_witness_nop : (stateOf .vchk 0 0 1 0).ph ∈ [Phase.idle, .gmsg, .gout, .vmsg, .vchk, .gdone, .vpass] := by decide

/-- For the clauses in which `GEN` and `VER` raise. -/
theorem test_witness_inside_a_record :
    (stateOf .gmsg 0 0 0 0).ph ∈ [Phase.gmsg, .gout, .vmsg, .vchk] ∧ (stateOf .vchk 0 0 3 0).ph ∈ [Phase.gmsg, .gout, .vmsg, .vchk] := by
  decide

/-- For every clause about phase `FAULT`, FaultPhaseIsSticky among them. -/
theorem test_witness_fault : (stateOf .fault 0 0 0 3).ph = .fault ∧ (0x1000#16 : CmdWord) ≠ 0x7000#16 := by decide

/-- For the clauses of FeedAbsorbsOneByte. -/
theorem test_witness_feed :
    (stateOf .gmsg 0 0 0 0).ph ∈ [Phase.gmsg, .vmsg] ∧ (stateOf .vpass 0 0 0 0).ph ∈ [Phase.idle, .gout, .vchk, .gdone, .vpass] := by
  decide

/-- For the clauses of EmitDeliversTheNextCheckByte. -/
theorem test_witness_emit :
    ((stateOf .gmsg 0 0 0 0).ph ∈ [Phase.gmsg, .gout] ∧ (stateOf .gmsg 0 0 0 0).idx ≠ 3#2) ∧
      ((stateOf .gout 0 0 3 0).ph ∈ [Phase.gmsg, .gout] ∧ (stateOf .gout 0 0 3 0).idx = 3#2) ∧
      (stateOf .gdone 0 0 0 0).ph ∈ [Phase.idle, .vmsg, .vchk, .gdone, .vpass] := by decide

/-- For the first clause of ChkTakesAByteAndComparesAfterTheFourth, and the one in which it raises. -/
theorem test_witness_chk :
    ((stateOf .vmsg 0 0 0 0).ph ∈ [Phase.vmsg, .vchk] ∧ (stateOf .vmsg 0 0 0 0).idx ≠ 3#2) ∧
      (stateOf .gdone 0 0 0 0).ph ∈ [Phase.idle, .gmsg, .gout, .gdone, .vpass] := by decide

/-- For its second clause: the fourth byte, equal. -/
theorem test_witness_chk_equal :
    let s := stateOf .vchk 0xEBB5F814 0x00144A07 3 0
    s.ph ∈ [Phase.vmsg, .vchk] ∧ s.idx = 3#2 ∧ (s.exp <<< 8) ||| (0xEB#8).setWidth 32 = s.acc ^^^ 0xFFFFFFFF#32 := by decide

/-- For its third clause: the fourth byte, unequal. -/
theorem test_witness_chk_unequal :
    let s := stateOf .vchk 0xEBB5F814 0x00144A07 3 0
    s.ph ∈ [Phase.vmsg, .vchk] ∧ s.idx = 3#2 ∧ (s.exp <<< 8) ||| (0xEA#8).setWidth 32 ≠ s.acc ^^^ 0xFFFFFFFF#32 := by decide

/-- For the raising clauses of EndMeansWhatItsPhaseSays, and its closing one. -/
theorem test_witness_end :
    (stateOf .vchk 0 0 1 0).ph ∈ [Phase.vmsg, .vchk] ∧ (stateOf .gout 0 0 1 0).ph ∈ [Phase.gout] ∧ (stateOf .gmsg 0 0 0 0).ph = .gmsg := by
  decide

/-- For the clauses of StepRunsTheDecodedInstruction and EveryCommandGetsExactlyOneResponse. -/
theorem test_witness_step :
    ((State.reset.withFetchWord 16 0x1000).input = .command 0x1000#16 :: [] ∧ decode 0x1000#16 = .legal .gen) ∧
      ((State.reset.withFetchWord 16 0x8000).input = .command 0x8000#16 :: [] ∧ decode 0x8000#16 = .illegal .reservedOp) ∧
      State.reset.input = [] := by decide

/-- For the clauses of StepRunsTheDecodedInstruction and EveryCommandGetsExactlyOneResponse in which nothing is presented. -/
theorem test_witness_no_input : State.reset.input = [] ∧ step State.reset = .next State.reset := ⟨rfl, rfl⟩

/-- For HardwareResetWinsAndIsNotAnswered and EveryCommandGetsExactlyOneResponse: both kinds of reset. -/
theorem test_witness_hardware_reset :
    (answered .hardwareReset = false ∧ (presentEvents [.hardwareReset] State.reset).input = .hardwareReset :: []) ∧
      (answered (.resetDuring 0x3061#16) = false ∧
        (presentEvents [.resetDuring 0x3061#16] State.reset).input = .resetDuring 0x3061#16 :: []) := by decide

/-- For FaultEntryWritesOnlyPhaseAndCause and the four statements on the causes: each cause is raised. -/
theorem test_witness_causes :
    ((stateOf .vmsg 0 0 0 0).ph ≠ .fault ∧ (afterWord 0x6000 (stateOf .vmsg 0 0 0 0)).map (fun p => p.1.2.2.2.2) = some 1#3) ∧
      ((stateOf .vchk 0 0 3 0).ph ≠ .fault ∧ (afterWord 0x5000 (stateOf .vchk 0 0 3 0)).map (fun p => p.1.2.2.2.2) = some 2#3) ∧
      ((stateOf .idle 0 0 0 0).ph ≠ .fault ∧ (afterWord 0x4000 (stateOf .idle 0 0 0 0)).map (fun p => p.1.2.2.2.2) = some 3#3) ∧
      ((stateOf .idle 0 0 0 0).ph ≠ .fault ∧ (afterWord 0x8000 (stateOf .idle 0 0 0 0)).map (fun p => p.1.2.2.2.2) = some 4#3) := by
  decide

/-- For OnlyResetLeavesTheFaultPhase: a step out of `FAULT`, by the word and by a hardware reset. -/
theorem test_witness_leaves_fault :
    (∃ t, step (presentEvents [.command 0x7000#16] (stateOf .fault 0 0 0 2)) = .next t ∧ t.ph ≠ .fault) ∧
      (∃ t, step (presentEvents [.hardwareReset] (stateOf .fault 0 0 0 2)) = .next t ∧ t.ph ≠ .fault) :=
  ⟨⟨_, rfl, by decide⟩, ⟨_, rfl, by decide⟩⟩

/-- For PhasesAreEnteredAsTheTableSays and CommandsLeaveTheOtherRegisters: a command that changes the phase. -/
theorem test_witness_phase_entered : ∃ t, exec .emit (stateOf .gout 0 0 3 0) = .next t ∧ t.ph ≠ (stateOf .gout 0 0 3 0).ph ∧ t.ph = .gdone :=
  ⟨_, rfl, by decide, by decide⟩

/-- For PassComesOnlyFromAMatchingFourthChk. -/
theorem test_witness_pass :
    ∃ t, step (presentEvents [.command 0x5000#16] (stateOf .vchk 0xFFFFFFFF 0 3 0)) = .next t ∧ passed t = true ∧
      passed (stateOf .vchk 0xFFFFFFFF 0 3 0) = false :=
  ⟨_, rfl, by decide, by decide⟩

/-- For ResponseDependsOnRegistersAndWordAlone: two different states with the same registers. -/
theorem test_witness_same_registers :
    registers State.reset = registers (presentEvents [.hardwareReset] State.reset) ∧
      State.reset ≠ presentEvents [.hardwareReset] State.reset := by decide

/-- For NopEndAndRstAreIdempotent. -/
theorem test_witness_idempotent :
    ∃ t u, exec .endInput (stateOf .gdone 0 0 0 0) = .next t ∧ exec .endInput t = .next u ∧
      (stateOf .gdone 0 0 0 0).ph ∈ [Phase.idle, .gdone, .vpass] :=
  ⟨_, _, rfl, rfl, by decide⟩

/-- For the statements over runs of events: a run with a hardware reset in it. -/
theorem test_witness_run_of_events :
    ∃ t, runEvents [.command 0x1000#16, .hardwareReset, .command 0x0000#16] State.reset = .next t ∧
      t.output = [0x0000#16, 0x0000#16] :=
  ⟨_, rfl, by decide⟩

/-- For the statements with `RegInv` and `OutputInv` as premises. -/
theorem test_witness_invariants : RegInv State.reset ∧ OutputInv State.reset ∧ RegInv (stateOf .vchk 0xEBB5F814 0x00144A07 3 0) :=
  ⟨by constructor <;> decide, by simp [OutputInv, State.reset], by constructor <;> decide⟩

/-- For DecodeOfEncodeIsTheInstruction and EncodeOfDecodeIsTheWord. -/
theorem test_witness_encoding : Instr.wellFormed (.chk 0xFF#8) = true ∧ decode 0x50FF#16 = .legal (.chk 0xFF#8) := by decide

/-- For the first two clauses of CheckIsTheBitSerialDefinition. -/
theorem test_witness_bitstep : BitVec.getLsbD 1#32 0 = true ∧ BitVec.getLsbD 2#32 0 = false := by decide

/-- For EquationFormIsTheByteStep: the top bit. -/
theorem test_witness_equation : 31 < 32 ∧ (absorb 0#32 0x80#8).getLsbD 31 = equationBit ((0#32 : Word32) ^^^ (0x80#8).setWidth 32) 31 := by
  decide

/-- For OneAlteredByteChangesTheCheck and the first clause of CorruptionIsReportedNeverPassed: the last byte of two. -/
theorem test_witness_altered : ∃ h : 1 < [0x61#8, 0x62#8].length, (0x63#8 : Byte) ≠ [0x61#8, 0x62#8][1]'h := ⟨by decide, by decide⟩

/-- For CheckIsAffineOnThreeMessages. -/
theorem test_witness_equal_lengths :
    [0x61#8, 0x62#8].length = [0x52#8, 0x75#8].length ∧ [0x52#8, 0x75#8].length = [0x49#8, 0x45#8].length := by decide

/-- For GenerateSequenceDeliversTheCheck: `NOP`s before, between and after. -/
theorem test_witness_generate :
    withoutNops [.nop, .gen, .feed 0x61#8, .nop, .emit, .emit, .nop, .emit, .emit, .nop] = generateSequence [0x61#8] := by decide

/-- For VerifySequencePassesExactlyOnTheCheck, both outcomes: the empty message's check is zero. -/
theorem test_witness_verify :
    withoutNops [.nop, .ver, .chk 0x00#8, .nop, .chk 0x00#8, .chk 0x00#8, .nop] = verifySequence [] [0x00#8, 0x00#8, 0x00#8] ∧
      bigEndian 0x00#8 0x00#8 0x00#8 0x00#8 = crc32 [] ∧ bigEndian 0x00#8 0x00#8 0x00#8 0x01#8 ≠ crc32 [] := by decide

/-- For GeneratedCheckVerifies. -/
theorem test_witness_round_trip : ∃ t, runCommands (generateSequence []) State.reset = .next t ∧ t.ph = .gdone := ⟨_, rfl, by decide⟩

/-- For the second clause of CorruptionIsReportedNeverPassed and for TruncationIsFormatError at its bound. -/
theorem test_witness_stored :
    ([0x00#8, 0x00#8, 0x00#8, 0x01#8].length = 4 ∧ [0x00#8, 0x00#8, 0x00#8, 0x01#8] ≠ wireBytes (crc32 [])) ∧
      [0x14#8, 0x4A#8, 0x07#8].length ≤ 3 ∧ ([] : List Byte).length ≤ 3 := by decide

end Sys2Proof.Tests
end

/-! The state layer: reset, the views, and what a command may depend on (10_state.md rules R25, R30 and R31). -/

namespace Sys2Proof.Machine

/-! ### The register view of the updates -/

@[simp] theorem registers_respond (r : Response) (s : State) : registers (respond r s) = registers s := rfl

@[simp] theorem registers_resetRegisters (s : State) : registers (resetRegisters s) = registers State.reset := rfl

@[simp] theorem registers_takeHardwareReset (s : State) : registers (takeHardwareReset s) = registers State.reset := rfl

/-- `RST` looks at no phase (40_control.md rule R95). -/
theorem exec_rst (s : State) : exec .rst s = .next (respond .ack (resetRegisters s)) := rfl

/-! ### The views -/

theorem crcO_eq (s : State) : crcO s = s.acc ^^^ 0xFFFFFFFF#32 := finalXor_eq s.acc

theorem passO_eq_one_iff (s : State) : passO s = 1#1 ↔ phO s = 6#3 := by
  unfold passO phO
  split <;> simp_all

theorem faultO_eq_one_iff (s : State) : faultO s = 1#1 ↔ phO s = 7#3 := by
  unfold faultO phO
  split <;> simp_all

/-- Settles O1: both forms of reset are `resetRegisters`, and the views are read off the reset state. -/
theorem resetGivesEveryRegisterItsValue : Obligations.ResetGivesEveryRegisterItsValue := by
  unfold Obligations.ResetGivesEveryRegisterItsValue
  have views : crcO State.reset = 0#32 ∧ expO State.reset = 0#32 ∧ phO State.reset = 0#3 ∧ idxO State.reset = 0#2 ∧
      causeO State.reset = 0#3 ∧ passO State.reset = 0#1 ∧ faultO State.reset = 0#1 := by decide
  exact ⟨rfl, views, fun s => ⟨_, exec_rst s, by simp⟩, registers_takeHardwareReset⟩

/-- Settles O28: five views copy a register or its final XOR, and the two flags compare the phase code. -/
theorem viewsAreFunctionsOfTheRegisters : Obligations.ViewsAreFunctionsOfTheRegisters := by
  unfold Obligations.ViewsAreFunctionsOfTheRegisters
  exact fun s => ⟨crcO_eq s, rfl, rfl, rfl, rfl, passO_eq_one_iff s, faultO_eq_one_iff s⟩

/-! ### Responses already produced are not read

`afterResponses ws s` is `s` with the responses `ws` produced before everything it answered itself. Each operation, each
meaning and the acceptance of a word commute with it, as `exec_input` and `acceptWord_input` say for the other channel. -/

/-- `s` with the responses `ws` ahead of its own. -/
def afterResponses (ws : List RspWord) (s : State) : State := { s with output := ws ++ s.output }

section AfterResponses

variable (ws : List RspWord) (s : State)

@[simp] theorem afterResponses_acc : (afterResponses ws s).acc = s.acc := rfl
@[simp] theorem afterResponses_exp : (afterResponses ws s).exp = s.exp := rfl
@[simp] theorem afterResponses_idx : (afterResponses ws s).idx = s.idx := rfl
@[simp] theorem afterResponses_ph : (afterResponses ws s).ph = s.ph := rfl
@[simp] theorem afterResponses_cause : (afterResponses ws s).cause = s.cause := rfl
@[simp] theorem afterResponses_output : (afterResponses ws s).output = ws ++ s.output := rfl

@[simp] theorem registers_afterResponses : registers (afterResponses ws s) = registers s := rfl

@[simp] theorem respond_afterResponses (r : Response) :
    respond r (afterResponses ws s) = afterResponses ws (respond r s) := by
  simp [respond, afterResponses]

@[simp] theorem raise_afterResponses (c : Cause) : raise c (afterResponses ws s) = afterResponses ws (raise c s) :=
  respond_afterResponses ws { s with ph := .fault, cause := causeCode c } _

@[simp] theorem answerFault_afterResponses : answerFault (afterResponses ws s) = afterResponses ws (answerFault s) :=
  respond_afterResponses ws s _

@[simp] theorem rejectIllegal_afterResponses :
    rejectIllegal (afterResponses ws s) = afterResponses ws (rejectIllegal s) := by
  cases hph : s.ph <;> simp [rejectIllegal, hph]

@[simp] theorem resetRegisters_afterResponses :
    resetRegisters (afterResponses ws s) = afterResponses ws (resetRegisters s) := rfl

@[simp] theorem openRecord_afterResponses (p : Phase) :
    openRecord p (afterResponses ws s) = afterResponses ws (openRecord p s) := rfl

@[simp] theorem afterEmit_afterResponses : afterEmit (afterResponses ws s) = afterResponses ws (afterEmit s) := by
  by_cases hlast : s.idx = 3#2 <;> simp [afterEmit, hlast, afterResponses]

@[simp] theorem takeCheckByte_afterResponses (b : Byte) :
    takeCheckByte b (afterResponses ws s) = afterResponses ws (takeCheckByte b s) := by
  by_cases hlast : s.idx = 3#2
  · by_cases heq : shiftIn s.exp b = finalXor s.acc <;>
      simp [takeCheckByte, compareCheck, hlast, heq, afterResponses, respond, raise]
  · simp [takeCheckByte, hlast, afterResponses, respond]

end AfterResponses

/-- exec reads no response already produced: earlier responses stay ahead of the new one. -/
theorem exec_afterResponses {i : Instr} {s t : State} (h : exec i s = .next t) (ws : List RspWord) :
    exec i (afterResponses ws s) = .next (afterResponses ws t) := by
  cases i <;> cases hph : s.ph <;>
    simp only [exec, execNop, execGen, execVer, execFeed, execEmit, execChk, execEnd, execRst, afterResponses_ph, hph] at h ⊢ <;>
    cases h
  -- `FEED` and `END` write a register of their own before they respond.
  case feed.gmsg.refl | feed.vmsg.refl | endInput.gmsg.refl => simp [afterResponses, respond]
  all_goals simp

/-- Accepting a word reads no response already produced. -/
theorem acceptWord_afterResponses {w : CmdWord} {s t : State} (h : acceptWord w s = .next t) (ws : List RspWord) :
    acceptWord w (afterResponses ws s) = .next (afterResponses ws t) := by
  cases hd : decode w with
  | legal i =>
    rw [acceptWord_legal hd] at h ⊢
    exact exec_afterResponses h ws
  | illegal k =>
    rw [acceptWord_illegal hd] at h ⊢
    cases h
    simp

/-! ### One response per accepted word (20_memory.md rule R52) -/

/-- Every effect of a command puts exactly one response after the earlier ones. -/
theorem Effect.output_eq {i : Instr} {s t : State} (e : Effect i s t) : ∃ r, t.output = s.output ++ [r] := by
  cases e with
  | emitted =>
    obtain ⟨_, h⟩ | ⟨_, h⟩ := afterEmit_cases s <;> simp [h]
  | taken b =>
    obtain ⟨_, h⟩ | ⟨_, _, h⟩ | ⟨_, _, h⟩ := takeCheckByte_cases b s <;> simp [h]
  | _ => exact ⟨_, rfl⟩

theorem rejectIllegal_output (s : State) : ∃ r, (rejectIllegal s).output = s.output ++ [r] := by
  obtain ⟨_, h⟩ | ⟨_, h⟩ := rejectIllegal_cases s <;> simp [h]

/-- Every accepted word, legal or not, has a next state and puts one response after the earlier ones. -/
theorem acceptWord_respondsOnce (w : CmdWord) (s : State) :
    ∃ t r, acceptWord w s = .next t ∧ t.output = s.output ++ [r] := by
  cases hd : decode w with
  | legal i =>
    obtain ⟨t, ht, e⟩ := exec_effect i s
    obtain ⟨r, hr⟩ := e.output_eq
    exact ⟨t, r, (acceptWord_legal hd s).trans ht, hr⟩
  | illegal k =>
    obtain ⟨r, hr⟩ := rejectIllegal_output s
    exact ⟨_, r, acceptWord_illegal hd s, hr⟩

/-! ### The registers and the word decide the answer (rule R31) -/

/-- The registers of `s` alone: nothing presented and no response produced. -/
def withoutChannels (s : State) : State := stateOf s.ph s.acc s.exp s.idx s.cause

/-- A state is its registers with its two channels put back. -/
theorem channels_withoutChannels (s : State) :
    { afterResponses s.output (withoutChannels s) with input := s.input } = s := by
  simp [afterResponses, withoutChannels, stateOf]

theorem withoutChannels_eq_of_registers {s₁ s₂ : State} (h : registers s₁ = registers s₂) :
    withoutChannels s₁ = withoutChannels s₂ := by
  simp only [registers, Prod.mk.injEq] at h
  obtain ⟨hph, hacc, hexp, hidx, hcause⟩ := h
  simp [withoutChannels, hph, hacc, hexp, hidx, hcause]

/-- What a word does to a state is what it does to the registers alone, with the channels put back. -/
theorem acceptWord_of_withoutChannels {w : CmdWord} {s t : State} (h : acceptWord w (withoutChannels s) = .next t) :
    acceptWord w s = .next { afterResponses s.output t with input := s.input } := by
  have hput := acceptWord_input (acceptWord_afterResponses h s.output) s.input
  rwa [channels_withoutChannels] at hput

/-- Settles O23: both states answer as their common registers without the channels do. -/
theorem responseDependsOnRegistersAndWordAlone : Obligations.ResponseDependsOnRegistersAndWordAlone := by
  unfold Obligations.ResponseDependsOnRegistersAndWordAlone
  intro w s₁ s₂ hregs
  obtain ⟨t, r, h₁, hr⟩ := acceptWord_respondsOnce w (withoutChannels s₁)
  have h₂ : acceptWord w (withoutChannels s₂) = .next t := withoutChannels_eq_of_registers hregs ▸ h₁
  have hout : t.output = [r] := hr
  exact ⟨_, _, r, acceptWord_of_withoutChannels h₁, acceptWord_of_withoutChannels h₂, rfl, by simp [hout], by simp [hout]⟩

end Sys2Proof.Machine

/-! The encoding layer: response words, format C and the opcode map, and the dispatch of an accepted word (30_encoding.md
rules R70 to R77). -/

namespace Sys2Proof.Machine

/-! ### Response words (rules R76 and R77) -/

/-- A byte set into the empty low half of a 16-bit word. -/
theorem append_zero_or_setWidth (high low : Byte) : (high ++ 0x00#8) ||| low.setWidth 16 = high ++ low := by
  have hlow : low.setWidth 16 = 0x00#8 ++ low := BitVec.setWidth_eq_append (by decide)
  rw [hlow, BitVec.or_append, BitVec.or_zero, BitVec.zero_or]

/-- Bits 11 to 8 of a word of format P are the `0000` it is built with. -/
theorem formatP_zeroField (kind : BitVec 4) (data : Byte) : (formatP kind data).extractLsb' 8 4 = 0#4 := by
  rw [formatP, BitVec.extractLsb'_append_eq_of_le (by decide)]
  exact BitVec.extractLsb'_append_eq_right

/-- Every response word is one of format P. -/
theorem responseWord_formatP (r : Response) : ∃ kind data, responseWord r = formatP kind data := by
  cases r <;> exact ⟨_, _, rfl⟩

/-- Settles O39: the two words with data put it into the low half of the kind's word, and each word is of format P. -/
theorem responseWordsHaveFormatP : Obligations.ResponseWordsHaveFormatP := by
  unfold Obligations.ResponseWordsHaveFormatP
  refine ⟨responseWord_ack, fun b => ?_, responseWord_pass, fun c => ?_, fun r => ?_⟩
  · exact (responseWord_byte b).trans (append_zero_or_setWidth 0x10#8 b).symm
  · rw [← BitVec.setWidth_setWidth (v := 8) (by decide)]
    exact (responseWord_err c).trans (append_zero_or_setWidth 0xE0#8 (c.setWidth 8)).symm
  · obtain ⟨kind, data, hr⟩ := responseWord_formatP r
    rw [hr, formatP_zeroField]

/-! ### Format C, encode and decode (rules R70 to R73) -/

theorem imm8Field_eq_setWidth (w : CmdWord) : imm8Field w = w.setWidth 8 :=
  (BitVec.setWidth_eq_extractLsb' (by decide)).symm

theorem exists_eq_append (w : CmdWord) : ∃ high low : Byte, w = high ++ low :=
  ⟨_, _, ((BitVec.extractLsb'_append_extractLsb'_eq_extractLsb' (start₁ := 0) (len₁ := 8) (len₂ := 8) rfl).trans
    BitVec.extractLsb'_eq_self).symm⟩

/-- A word of format C is its half under the mask `0xFF00` and its operand field. -/
theorem formatC_eq_iff (op : BitVec 4) (b : Byte) (w : CmdWord) :
    formatC op b = w ↔ w &&& 0xFF00#16 = formatC op 0x00#8 ∧ b = imm8Field w := by
  obtain ⟨high, low, rfl⟩ := exists_eq_append w
  have hmask : (high ++ low) &&& 0xFF00#16 = high ++ 0x00#8 := by
    have hsplit : 0xFF00#16 = BitVec.allOnes 8 ++ 0x00#8 := rfl
    rw [hsplit, BitVec.and_append, BitVec.and_allOnes, BitVec.and_zero]
  have himm : imm8Field (high ++ low) = low := BitVec.extractLsb'_append_eq_right
  rw [hmask, himm, formatC, formatC, BitVec.append_left_inj]
  constructor
  · intro h
    have hlow : b = low := by simpa only [BitVec.setWidth_append_eq_right] using congrArg (BitVec.setWidth 8) h
    subst hlow
    exact ⟨((BitVec.append_left_inj b).mp h).symm, rfl⟩
  · rintro ⟨rfl, rfl⟩
    rfl

/-- The word of a command decodes to the command. -/
theorem decode_encode (i : Instr) : decode (encode i) = .legal i := by
  cases i with
  | feed b => revert b; decide
  | chk b => revert b; decide
  | _ => rfl

/-- A word that decodes to a command is the command's word. -/
theorem encode_eq_of_decode {w : CmdWord} {i : Instr} (h : decode w = .legal i) : encode i = w := by
  unfold decode at h
  split_ifs at h with hnop hgen hver hfeed hemit hchk hend hrst <;> cases h
  · exact hnop.symm
  · exact hgen.symm
  · exact hver.symm
  · exact (formatC_eq_iff 0x3#4 _ w).mpr ⟨hfeed, rfl⟩
  · exact hemit.symm
  · exact (formatC_eq_iff 0x5#4 _ w).mpr ⟨hchk, rfl⟩
  · exact hend.symm
  · exact hrst.symm

theorem decode_eq_legal_iff (w : CmdWord) (i : Instr) : decode w = .legal i ↔ encode i = w :=
  ⟨encode_eq_of_decode, fun h => h ▸ decode_encode i⟩

/-! ### The opcode map (rule R72) -/

/-- What any two accepting rows of a word agree on: the bits that both masks keep. -/
theorem OpcodeRow.matchBits_agree {r q : OpcodeRow} {w : CmdWord} (hr : r.accepts w = true) (hq : q.accepts w = true) :
    r.matchBits &&& q.maskBits = q.matchBits &&& r.maskBits := by
  rw [OpcodeRow.accepts, beq_iff_eq] at hr hq
  rw [← hr, ← hq, BitVec.and_assoc, BitVec.and_assoc, BitVec.and_comm r.maskBits]

/-- Any two rows of the opcode map differ in a bit that both masks keep. -/
theorem opcodeMap_pairwise_differ :
    opcodeMap.Pairwise (fun r q => r.matchBits &&& q.maskBits ≠ q.matchBits &&& r.maskBits) := by decide

theorem opcodeMap_mnemonic_injective {r q : OpcodeRow} (hr : r ∈ opcodeMap) (hq : q ∈ opcodeMap)
    (h : r.mnemonic = q.mnemonic) : r = q :=
  List.inj_on_of_nodup_map (by decide : (opcodeMap.map OpcodeRow.mnemonic).Nodup) hr hq h

/-- The mask of a command's row: the operand byte is left free where there is one. -/
def operandMask : Instr → CmdWord
  | .feed _ | .chk _ => 0xFF00#16
  | .nop | .gen | .ver | .emit | .endInput | .rst => 0xFFFF#16

/-- The row of the opcode map that a command belongs to. -/
def opcodeRow (i : Instr) : OpcodeRow := ⟨mnemonic i, formatC (opcode i) 0x00#8, operandMask i⟩

theorem opcodeRow_mem (i : Instr) : opcodeRow i ∈ opcodeMap := by
  cases i <;> simp [opcodeRow, opcodeMap, mnemonic, opcode, operandMask, formatC]

/-- A command's row is the one with its mnemonic. -/
theorem eq_opcodeRow_iff {r : OpcodeRow} (hr : r ∈ opcodeMap) (i : Instr) : r = opcodeRow i ↔ r.mnemonic = mnemonic i :=
  ⟨fun h => h ▸ rfl, opcodeMap_mnemonic_injective hr (opcodeRow_mem i)⟩

/-- A word is the command's word exactly when the command's row accepts it and its free bits are the operand. -/
theorem opcodeRow_accepts_iff (w : CmdWord) (i : Instr) :
    ((opcodeRow i).accepts w = true ∧
      operandField i = if (opcodeRow i).maskBits = 0xFF00#16 then w.setWidth 8 else 0x00#8) ↔ encode i = w := by
  have hexact : w &&& 0xFFFF#16 = w := BitVec.and_allOnes
  rw [OpcodeRow.accepts, beq_iff_eq, ← imm8Field_eq_setWidth]
  cases i with
  | feed b | chk b => exact (formatC_eq_iff _ b w).symm
  | _ => simp [opcodeRow, operandMask, operandField, encode, hexact, eq_comm]

/-- Settles O36: two rows differ in a bit both keep, and decoding a word, being its encoding and being accepted by the
command's row are one condition. -/
theorem opcodeMapIsDisjointAndIsWhatDecodeReads : Obligations.OpcodeMapIsDisjointAndIsWhatDecodeReads := by
  unfold Obligations.OpcodeMapIsDisjointAndIsWhatDecodeReads
  refine ⟨opcodeMap_pairwise_differ.imp fun hne w ⟨hr, hq⟩ => hne (OpcodeRow.matchBits_agree hr hq), fun w i => ?_⟩
  rw [decode_eq_legal_iff, ← opcodeRow_accepts_iff]
  constructor
  · rintro ⟨hacc, hop⟩
    exact ⟨opcodeRow i, opcodeRow_mem i, hacc, rfl, hop⟩
  · rintro ⟨r, hr, hacc, hname, hop⟩
    obtain rfl := (eq_opcodeRow_iff hr i).mpr hname
    exact ⟨hacc, hop⟩

/-! ### Dispatch (rule R75) -/

/-- In phase `FAULT` every command but `RST` answers the recorded cause. -/
theorem exec_of_fault {i : Instr} {s : State} (hi : i ≠ .rst) (hf : s.ph = .fault) : exec i s = .next (answerFault s) := by
  obtain ⟨t, ht, e⟩ := exec_effect i s
  cases e with
  | sticky => exact ht
  | _ => simp_all

/-- Case 1: the exact `RST` word resets in every phase. -/
theorem acceptWord_rst (s : State) : acceptWord 0x7000#16 s = .next (respond .ack (resetRegisters s)) :=
  (acceptWord_legal (decode_encode .rst) s).trans (exec_rst s)

/-- Case 2: in phase `FAULT` any other word, legal or not, answers the recorded cause. -/
theorem acceptWord_of_fault {w : CmdWord} {s : State} (hw : w ≠ 0x7000#16) (hf : s.ph = .fault) :
    acceptWord w s = .next (answerFault s) := by
  cases hd : decode w with
  | legal i =>
    have hi : i ≠ .rst := by
      rintro rfl
      exact hw (encode_eq_of_decode hd).symm
    rw [acceptWord_legal hd, exec_of_fault hi hf]
  | illegal k => rw [acceptWord_illegal hd, rejectIllegal, hf]

/-- Case 3: outside phase `FAULT` an illegal word raises IllegalCommand. -/
theorem acceptWord_of_illegal {w : CmdWord} {k : IllegalClass} {s : State} (hd : decode w = .illegal k)
    (hf : s.ph ≠ .fault) : acceptWord w s = .next (raise .illegalCommand s) := by
  obtain ⟨hf', _⟩ | ⟨_, hr⟩ := rejectIllegal_cases s
  · exact absurd hf' hf
  · rw [acceptWord_illegal hd, hr]

/-- `ERR` with the recorded cause is the only change in phase `FAULT`. -/
theorem answerFault_eq (s : State) : answerFault s = { s with output := s.output ++ [errWord s.cause] } := by
  rw [answerFault, respond, responseWord_err, errWord]

/-- Settles O12: one lemma for each of the rule's first three cases, `acceptWord_legal` for the fourth. -/
theorem dispatchFollowsTheOrderOfTheRule : Obligations.DispatchFollowsTheOrderOfTheRule := by
  unfold Obligations.DispatchFollowsTheOrderOfTheRule
  refine ⟨fun w s => ?_, fun w s => acceptEvent_next (.command w) s⟩
  split_ifs with hw hf
  · rw [hw]
    exact acceptWord_rst s
  · rw [acceptWord_of_fault hw hf, answerFault_eq]
  · cases hd : decode w with
    | illegal k => exact acceptWord_of_illegal hd hf
    | legal i => exact acceptWord_legal hd s

end Sys2Proof.Machine

/-! The control layer: the answers every command shares, and the meanings of `NOP`, `GEN`, `VER`, `END` and `RST` phase by
phase (40_control.md rules R91 to R95). -/

namespace Sys2Proof.Machine

/-! ### The shared answers as record updates -/

/-- `ACK` is the only change. -/
theorem respond_ack_eq (s : State) : respond .ack s = { s with output := s.output ++ [0x0000#16] } := rfl

/-- Fault entry (60_exceptions.md rule R155). -/
theorem raise_eq (c : Cause) (s : State) :
    raise c s = { s with ph := .fault, cause := causeCode c, output := s.output ++ [errWord (causeCode c)] } := by
  rw [raise, respond, responseWord_err, errWord]

theorem raisesIn_of_exec_eq_raise {i : Instr} {phases : List Phase} (c : Cause)
    (h : ∀ s : State, s.ph ∈ phases → exec i s = .next (raise c s)) : raisesIn i phases (causeCode c) := by
  intro s hph
  rw [h s hph, raise_eq]

/-- Every command but `RST` is answered with the recorded cause in phase `FAULT` (30_encoding.md rule R75 step 2). -/
theorem answersRecordedCause_of_ne_rst {i : Instr} (hi : i ≠ .rst) : answersRecordedCause i := by
  intro s hf
  rw [exec_of_fault hi hf, answerFault_eq]

/-! ### `NOP` (rule R91) -/

theorem exec_nop_of_ne_fault {s : State} (hf : s.ph ≠ .fault) : exec .nop s = .next (respond .ack s) := by
  obtain ⟨t, ht, e⟩ := exec_effect .nop s
  cases e with
  | nothing => exact ht
  | _ => simp_all

/-- Settles O2: outside phase `FAULT` the one effect of `NOP` is `ACK`. -/
theorem nopOnlyAcknowledges : Obligations.NopOnlyAcknowledges := by
  unfold Obligations.NopOnlyAcknowledges
  refine ⟨fun s hph => ?_, answersRecordedCause_of_ne_rst (by decide), decode_encode .nop⟩
  have hf : s.ph ≠ .fault := by
    intro hf
    simp [hf] at hph
  rw [exec_nop_of_ne_fault hf, respond_ack_eq]

/-! ### `GEN` and `VER` (rules R92 and R93)

The two commands differ in the phase they enter alone, so each lemma is about both. -/

/-- The command `i` starts a record in phase `p`. -/
def Opens (i : Instr) (p : Phase) : Prop := i = .gen ∧ p = .gmsg ∨ i = .ver ∧ p = .vmsg

theorem opens_gen : Opens .gen .gmsg := .inl ⟨rfl, rfl⟩

theorem opens_ver : Opens .ver .vmsg := .inr ⟨rfl, rfl⟩

/-- Between records the command opens its record. -/
theorem Opens.exec_between {i : Instr} {p : Phase} {s : State} (hi : Opens i p) (hph : s.ph ∈ betweenRecords) :
    exec i s = .next (respond .ack (openRecord p s)) := by
  simp only [betweenRecords, List.mem_cons, List.not_mem_nil, or_false] at hph
  obtain ⟨rfl, rfl⟩ | ⟨rfl, rfl⟩ := hi
  · obtain h | h | h := hph <;> simp [exec, execGen, h]
  · obtain h | h | h := hph <;> simp [exec, execVer, h]

/-- Inside a record it raises ProtocolError. -/
theorem Opens.exec_inside {i : Instr} {p : Phase} {s : State} (hi : Opens i p)
    (hph : s.ph ∈ [Phase.gmsg, .gout, .vmsg, .vchk]) : exec i s = .next (raise .protocolError s) := by
  simp only [List.mem_cons, List.not_mem_nil, or_false] at hph
  obtain ⟨rfl, rfl⟩ | ⟨rfl, rfl⟩ := hi
  · obtain h | h | h | h := hph <;> simp [exec, execGen, h]
  · obtain h | h | h | h := hph <;> simp [exec, execVer, h]

/-- Settles O3: `GEN` opens a record in `GMSG`. -/
theorem genStartsAGenerateRecord : Obligations.GenStartsAGenerateRecord := by
  unfold Obligations.GenStartsAGenerateRecord
  exact ⟨fun _ => opens_gen.exec_between, raisesIn_of_exec_eq_raise .protocolError fun _ => opens_gen.exec_inside,
    answersRecordedCause_of_ne_rst (by decide), decode_encode .gen⟩

/-- Settles O4: `VER` opens a record in `VMSG`. -/
theorem verStartsAVerifyRecord : Obligations.VerStartsAVerifyRecord := by
  unfold Obligations.VerStartsAVerifyRecord
  exact ⟨fun _ => opens_ver.exec_between, raisesIn_of_exec_eq_raise .protocolError fun _ => opens_ver.exec_inside,
    answersRecordedCause_of_ne_rst (by decide), decode_encode .ver⟩

/-! ### `END` (rule R94) -/

section EndOfInput

variable {s : State}

theorem exec_endInput_between (hph : s.ph ∈ betweenRecords) : exec .endInput s = .next (respond .ack s) := by
  simp only [betweenRecords, List.mem_cons, List.not_mem_nil, or_false] at hph
  obtain h | h | h := hph <;> simp [exec, execEnd, h]

theorem exec_endInput_gmsg (hph : s.ph = .gmsg) : exec .endInput s = .next (respond .ack { s with ph := .gdone }) := by
  simp [exec, execEnd, hph]

theorem exec_endInput_verifying (hph : s.ph ∈ [Phase.vmsg, .vchk]) :
    exec .endInput s = .next (raise .formatError s) := by
  simp only [List.mem_cons, List.not_mem_nil, or_false] at hph
  obtain h | h := hph <;> simp [exec, execEnd, h]

theorem exec_endInput_gout (hph : s.ph = .gout) : exec .endInput s = .next (raise .protocolError s) := by
  simp [exec, execEnd, hph]

end EndOfInput

/-- Settles O8: one lemma for each of the rule's four cases. -/
theorem endMeansWhatItsPhaseSays : Obligations.EndMeansWhatItsPhaseSays := by
  unfold Obligations.EndMeansWhatItsPhaseSays
  exact ⟨fun _ => exec_endInput_between, fun _ => exec_endInput_gmsg,
    raisesIn_of_exec_eq_raise .formatError fun _ => exec_endInput_verifying,
    raisesIn_of_exec_eq_raise .protocolError fun _ hph => exec_endInput_gout (List.mem_singleton.mp hph),
    answersRecordedCause_of_ne_rst (by decide), decode_encode .endInput⟩

/-! ### `RST` (rule R95) -/

/-- Settles O9: `RST` looks at no phase, and a word decodes to it exactly when it is its encoding. -/
theorem rstResetsEveryRegister : Obligations.RstResetsEveryRegister := by
  unfold Obligations.RstResetsEveryRegister
  exact ⟨exec_rst, fun w => (decode_eq_legal_iff w .rst).trans eq_comm⟩

end Sys2Proof.Machine

/-! The absorb layer: the meaning of `FEED` phase by phase, and the check as the bit-serial definition (41_absorb.md rules
R112, R113, R116, R117 and R120). -/

namespace Sys2Proof.Machine

/-! ### `FEED` (rule R120) -/

section Feed

variable {b : Byte} {s : State}

/-- In both message phases the byte is absorbed into `ACC`. -/
theorem exec_feed_message (hph : s.ph ∈ [Phase.gmsg, .vmsg]) :
    exec (.feed b) s = .next (respond .ack { s with acc := absorb s.acc b }) := by
  simp only [List.mem_cons, List.not_mem_nil, or_false] at hph
  obtain h | h := hph <;> simp [exec, execFeed, h]

/-- Outside the message phases and `FAULT` it raises ProtocolError. -/
theorem exec_feed_elsewhere (hph : s.ph ∈ [Phase.idle, .gout, .vchk, .gdone, .vpass]) :
    exec (.feed b) s = .next (raise .protocolError s) := by
  simp only [List.mem_cons, List.not_mem_nil, or_false] at hph
  obtain h | h | h | h | h := hph <;> simp [exec, execFeed, h]

end Feed

theorem encode_feed (b : Byte) : encode (.feed b) = 0x30#8 ++ b := by
  simp [encode, formatC, opcode, operandField]

/-- Settles O5: one lemma for the message phases and one for the phases in which `FEED` raises. -/
theorem feedAbsorbsOneByte : Obligations.FeedAbsorbsOneByte := by
  unfold Obligations.FeedAbsorbsOneByte
  refine ⟨fun b s hph => ?_, fun b => raisesIn_of_exec_eq_raise .protocolError fun _ => exec_feed_elsewhere,
    fun b => answersRecordedCause_of_ne_rst Instr.noConfusion, fun b => ?_⟩
  · rw [exec_feed_message hph, respond_ack_eq]
  · rw [← encode_feed, decode_encode]

/-! ### The bit-serial definition (rules R112, R113, R116 and R117) -/

theorem bitstep_of_bit_set {u : Word32} (h : u.getLsbD 0 = true) : bitstep u = (u >>> 1) ^^^ 0xEDB88320#32 := if_pos h

theorem bitstep_of_bit_clear {u : Word32} (h : u.getLsbD 0 = false) : bitstep u = u >>> 1 :=
  if_neg (Bool.eq_false_iff.mp h)

/-- The model's repeated bit step is the library's iterate. -/
theorem bitsteps_eq_iterate (n : Nat) (u : Word32) : bitsteps n u = bitstep^[n] u := by
  induction n generalizing u with
  | zero => rfl
  | succ n ih => rw [bitsteps_succ, ih, Function.iterate_succ_apply]

/-- The last byte of a message is absorbed last. -/
theorem fold_concat (m : List Byte) (b : Byte) : fold (m ++ [b]) = absorb (fold m) b := by
  rw [fold, absorbAll_append, absorbAll_cons, absorbAll_nil, ← fold]

/-- Settles O42: `bitsteps` is the iterate of the bit step, and the fold absorbs byte after byte. -/
theorem checkIsTheBitSerialDefinition : Obligations.CheckIsTheBitSerialDefinition := by
  unfold Obligations.CheckIsTheBitSerialDefinition
  exact ⟨fun _ => bitstep_of_bit_set, fun _ => bitstep_of_bit_clear, fun _ _ => bitsteps_eq_iterate 8 _,
    absorbAll_nil _, fold_concat, fun m => finalXor_eq (fold m)⟩

end Sys2Proof.Machine

/-! The generate layer: the check byte as a shift, and the meaning of `EMIT` phase by phase (42_generate.md rule R130). -/

namespace Sys2Proof.Machine

/-! ### The check byte -/

/-- The four selected bytes start at bits 24, 16, 8 and 0. -/
theorem checkByte_eq_extractLsb' (c : Word32) (idx : BitVec 2) :
    checkByte c idx = c.extractLsb' (8 * (3 - idx.toNat)) 8 := by
  match idx with
  | 0#2 | 1#2 | 2#2 | 3#2 => rfl

/-- The rule's second form: the byte is what a shift brings down to bit 0. -/
theorem checkByte_eq_shift (c : Word32) (idx : BitVec 2) :
    checkByte c idx = (c >>> (8 * (3 - idx.toNat))).setWidth 8 := by
  rw [checkByte_eq_extractLsb', BitVec.setWidth_ushiftRight_eq_extractLsb]

/-- The last byte lies at bit 0 already. -/
theorem checkByte_last (c : Word32) : checkByte c 3#2 = c.setWidth 8 :=
  (BitVec.setWidth_eq_extractLsb' (by decide)).symm

/-- The four shifts in order give the wire bytes (20_memory.md rule R53). -/
theorem shifts_eq_wireBytes (c : Word32) :
    [0, 1, 2, 3].map (fun k => (c >>> (8 * (3 - k))).setWidth 8) = wireBytes c := by
  simp only [BitVec.setWidth_ushiftRight_eq_extractLsb]
  rfl

/-! ### `EMIT` -/

/-- `BYTE` is the only change. -/
theorem respond_byte_eq (b : Byte) (s : State) :
    respond (.byte b) s = { s with output := s.output ++ [byteWord b] } := by
  rw [respond, responseWord_byte, byteWord]

section Emit

variable {s : State}

theorem afterEmit_of_ne_last (hidx : s.idx ≠ 3#2) : afterEmit s = { s with idx := s.idx + 1#2, ph := .gout } :=
  if_neg hidx

theorem afterEmit_of_last (hidx : s.idx = 3#2) : afterEmit s = { s with idx := 0#2, ph := .gdone } :=
  if_pos hidx

/-- In both generate phases the selected byte of the check goes out. -/
theorem exec_emit_generating (hph : s.ph ∈ [Phase.gmsg, .gout]) :
    exec .emit s = .next (respond (.byte (checkByte (finalXor s.acc) s.idx)) (afterEmit s)) := by
  simp only [List.mem_cons, List.not_mem_nil, or_false] at hph
  obtain h | h := hph <;> simp [exec, execEmit, h]

/-- Outside the generate phases and `FAULT` it raises ProtocolError. -/
theorem exec_emit_elsewhere (hph : s.ph ∈ [Phase.idle, .vmsg, .vchk, .gdone, .vpass]) :
    exec .emit s = .next (raise .protocolError s) := by
  simp only [List.mem_cons, List.not_mem_nil, or_false] at hph
  obtain h | h | h | h | h := hph <;> simp [exec, execEmit, h]

end Emit

/-- Settles O6: the index decides what `EMIT` leaves behind, and the byte it selects is the shifted check. -/
theorem emitDeliversTheNextCheckByte : Obligations.EmitDeliversTheNextCheckByte := by
  unfold Obligations.EmitDeliversTheNextCheckByte
  refine ⟨fun s hph hidx => ?_, fun s hph hidx => ?_,
    raisesIn_of_exec_eq_raise .protocolError fun _ => exec_emit_elsewhere, answersRecordedCause_of_ne_rst (by decide),
    decode_encode .emit, shifts_eq_wireBytes⟩
  · rw [exec_emit_generating hph, afterEmit_of_ne_last hidx, respond_byte_eq, checkByte_eq_shift, finalXor_eq]
  · rw [exec_emit_generating hph, afterEmit_of_last hidx, respond_byte_eq, hidx, checkByte_last, finalXor_eq]

end Sys2Proof.Machine

/-! The verify layer: what a stored check byte does, and the meaning of `CHK` phase by phase (43_verify.md rule R140). -/

namespace Sys2Proof.Machine

/-- `PASS` is the only change. -/
theorem respond_pass_eq (s : State) : respond .pass s = { s with output := s.output ++ [0x2000#16] } := rfl

theorem shiftIn_eq (e : Word32) (b : Byte) : shiftIn e b = (e <<< 8) ||| b.setWidth 32 := rfl

section Chk

variable {b : Byte} {s : State}

/-! ### The stored check byte -/

theorem takeCheckByte_of_ne_last (hidx : s.idx ≠ 3#2) :
    takeCheckByte b s = respond .ack { s with exp := shiftIn s.exp b, idx := s.idx + 1#2, ph := .vchk } :=
  if_neg hidx

theorem takeCheckByte_of_last (hidx : s.idx = 3#2) : takeCheckByte b s = compareCheck (shiftIn s.exp b) s :=
  if_pos hidx

theorem compareCheck_of_eq {e : Word32} (heq : e = finalXor s.acc) :
    compareCheck e s = respond .pass { s with exp := e, idx := 0#2, ph := .vpass } :=
  if_pos heq

theorem compareCheck_of_ne {e : Word32} (hne : e ≠ finalXor s.acc) :
    compareCheck e s = raise .integrityError { s with exp := e, idx := 0#2 } :=
  if_neg hne

/-! ### `CHK` -/

/-- In both verify phases the byte is taken. -/
theorem exec_chk_verifying (hph : s.ph ∈ [Phase.vmsg, .vchk]) : exec (.chk b) s = .next (takeCheckByte b s) := by
  simp only [List.mem_cons, List.not_mem_nil, or_false] at hph
  obtain h | h := hph <;> simp [exec, execChk, h]

/-- Outside the verify phases and `FAULT` it raises ProtocolError. -/
theorem exec_chk_elsewhere (hph : s.ph ∈ [Phase.idle, .gmsg, .gout, .gdone, .vpass]) :
    exec (.chk b) s = .next (raise .protocolError s) := by
  simp only [List.mem_cons, List.not_mem_nil, or_false] at hph
  obtain h | h | h | h | h := hph <;> simp [exec, execChk, h]

end Chk

theorem encode_chk (b : Byte) : encode (.chk b) = 0x50#8 ++ b := by
  simp [encode, formatC, opcode, operandField]

/-- Settles O7: the index decides whether the byte is compared at all, and the comparison whether the record passes. -/
theorem chkTakesAByteAndComparesAfterTheFourth : Obligations.ChkTakesAByteAndComparesAfterTheFourth := by
  unfold Obligations.ChkTakesAByteAndComparesAfterTheFourth
  refine ⟨fun b s hph hidx => ?_, fun b s hph hidx heq => ?_, fun b s hph hidx hne => ?_,
    fun b => raisesIn_of_exec_eq_raise .protocolError fun _ => exec_chk_elsewhere,
    fun b => answersRecordedCause_of_ne_rst Instr.noConfusion, fun b => ?_⟩
  · rw [exec_chk_verifying hph, takeCheckByte_of_ne_last hidx, respond_ack_eq, shiftIn_eq]
  · rw [← shiftIn_eq, ← finalXor_eq] at heq
    rw [exec_chk_verifying hph, takeCheckByte_of_last hidx, compareCheck_of_eq heq, respond_pass_eq, shiftIn_eq]
  · rw [← shiftIn_eq, ← finalXor_eq] at hne
    rw [exec_chk_verifying hph, takeCheckByte_of_last hidx, compareCheck_of_ne hne, raise_eq, shiftIn_eq]
    rfl
  · rw [← encode_chk, decode_encode]

end Sys2Proof.Machine

/-! The exceptions layer: each way an accepted word takes the unit into phase `FAULT`, with the cause and the state it leaves
(60_exceptions.md rules R150 to R157). -/

namespace Sys2Proof.Machine

/-! ### The ways into phase `FAULT` -/

/-- In `s` the accepted word `w` raises the cause and leaves the unit in the state, one constructor per rule R151 to R154. -/
inductive Raises (w : CmdWord) (s : State) : Cause → State → Prop where
  | formatError : decode w = .legal .endInput → s.ph ∈ [Phase.vmsg, .vchk] → Raises w s .formatError (raise .formatError s)
  | integrityError (b : Byte) : decode w = .legal (.chk b) → s.ph ∈ [Phase.vmsg, .vchk] → s.idx = 3#2 →
      shiftIn s.exp b ≠ finalXor s.acc →
      Raises w s .integrityError (raise .integrityError { s with exp := shiftIn s.exp b, idx := 0#2 })
  | protocolError (i : Instr) : decode w = .legal i → exec i s = .next (raise .protocolError s) →
      Raises w s .protocolError (raise .protocolError s)
  | illegalCommand (k : IllegalClass) : decode w = .illegal k → Raises w s .illegalCommand (raise .illegalCommand s)

section Raises

variable {w : CmdWord} {s t : State} {c : Cause}

theorem Raises.ph_eq (r : Raises w s c t) : t.ph = .fault := by cases r <;> rfl

theorem Raises.cause_eq (r : Raises w s c t) : t.cause = causeCode c := by cases r <;> rfl

theorem Raises.acc_eq (r : Raises w s c t) : t.acc = s.acc := by cases r <;> rfl

theorem Raises.input_eq (r : Raises w s c t) : t.input = s.input := by cases r <;> rfl

theorem Raises.output_eq (r : Raises w s c t) : t.output = s.output ++ [errWord t.cause] := by
  cases r <;> rw [raise_eq]

/-- The word does raise the cause. -/
theorem Raises.acceptWord_eq (r : Raises w s c t) (hf : s.ph ≠ .fault) : acceptWord w s = .next t := by
  cases r with
  | formatError hd hph => rw [acceptWord_legal hd, exec_endInput_verifying hph]
  | integrityError b hd hph hidx hne =>
    rw [acceptWord_legal hd, exec_chk_verifying hph, takeCheckByte_of_last hidx, compareCheck_of_ne hne]
  | protocolError i hd hexec => rw [acceptWord_legal hd, hexec]
  | illegalCommand k hd => exact acceptWord_of_illegal hd hf

/-- There is no other way into phase `FAULT`: of the effects of a command, three enter it. -/
theorem exists_raises (hf : s.ph ≠ .fault) (h : acceptWord w s = .next t) (ht : t.ph = .fault) : ∃ c, Raises w s c t := by
  cases hd : decode w with
  | illegal k =>
    rw [acceptWord_of_illegal hd hf] at h
    cases h
    exact ⟨_, .illegalCommand k hd⟩
  | legal i =>
    rw [acceptWord_legal hd] at h
    cases effect_of_exec h with
    | refused => exact ⟨_, .protocolError i hd h⟩
    | truncated hi hph =>
      subst hi
      exact ⟨_, .formatError hd (by simpa using hph)⟩
    | taken b hi hph =>
      subst hi
      obtain ⟨_, htake⟩ | ⟨_, _, htake⟩ | ⟨hidx, hne, htake⟩ := takeCheckByte_cases b s
      · simp [htake] at ht
      · simp [htake] at ht
      · rw [htake]
        exact ⟨_, .integrityError b hd (by simpa using hph) hidx hne⟩
    | opened p hi => obtain ⟨_, rfl⟩ | ⟨_, rfl⟩ := hi <;> cases ht
    | emitted => obtain ⟨_, hemit⟩ | ⟨_, hemit⟩ := afterEmit_cases s <;> simp [hemit] at ht
    | sticky _ hs => exact absurd hs hf
    | nothing => exact absurd ht hf
    | absorbed => exact absurd ht hf
    | reset => cases ht
    | closed => cases ht

theorem causeCode_injective : Function.Injective causeCode := by
  intro c d h
  cases c <;> cases d <;> cases h <;> rfl

/-- Outside phase `FAULT` the cause recorded by an accepted word tells which of the ways it took. -/
theorem acceptWord_enters_fault_iff (c : Cause) (hf : s.ph ≠ .fault) (h : acceptWord w s = .next t) :
    t.ph = .fault ∧ t.cause = causeCode c ↔ ∃ u, Raises w s c u := by
  constructor
  · rintro ⟨ht, hc⟩
    obtain ⟨d, r⟩ := exists_raises hf h ht
    obtain rfl := causeCode_injective (r.cause_eq.symm.trans hc)
    exact ⟨t, r⟩
  · rintro ⟨u, r⟩
    obtain rfl : t = u := Host.Outcome.next.inj (h.symm.trans (r.acceptWord_eq hf))
    exact ⟨r.ph_eq, r.cause_eq⟩

end Raises

/-! ### Fault entry and phase `FAULT` (rules R155 and R157) -/

theorem causeCode_mem (c : Cause) : causeCode c ∈ [1#3, 2#3, 3#3, 4#3] := by
  cases c <;> decide

/-- Settles O13: the ways into phase `FAULT` share all but `EXP` and `IDX`, and a mismatch alone writes those. -/
theorem faultEntryWritesOnlyPhaseAndCause : Obligations.FaultEntryWritesOnlyPhaseAndCause := by
  unfold Obligations.FaultEntryWritesOnlyPhaseAndCause
  intro w s t hf h ht
  obtain ⟨c, r⟩ := exists_raises hf h ht
  refine ⟨r.cause_eq ▸ causeCode_mem c, r.output_eq, r.acc_eq, r.input_eq, fun hc => ?_, fun hc => ?_⟩
  · cases r with
    | integrityError => exact absurd rfl hc
    | _ => exact ⟨rfl, rfl⟩
  · cases r with
    | integrityError b hd _ hidx _ => exact ⟨b, hd, hidx, shiftIn_eq s.exp b, rfl⟩
    | _ => cases hc

/-- Settles O14: case 2 of the dispatch, and answering in phase `FAULT` changes no register. -/
theorem faultPhaseIsSticky : Obligations.FaultPhaseIsSticky := by
  unfold Obligations.FaultPhaseIsSticky
  intro w s hf hw
  rw [acceptWord_of_fault hw hf, answerFault_eq]

/-! ### What raises each cause (rules R151, R152 and R154) -/

/-- Settles O16: the one way to FormatError. -/
theorem formatErrorIsRaisedExactlyByEndInsideAVerifiedRecord :
    Obligations.FormatErrorIsRaisedExactlyByEndInsideAVerifiedRecord := by
  unfold Obligations.FormatErrorIsRaisedExactlyByEndInsideAVerifiedRecord
  intro w s t hf h
  refine (acceptWord_enters_fault_iff .formatError hf h).trans ⟨?_, ?_⟩
  · rintro ⟨_, r⟩
    cases r with
    | formatError hd hph => exact ⟨hd, hph⟩
  · rintro ⟨hd, hph⟩
    exact ⟨_, .formatError hd hph⟩

/-- Settles O17: the one way to IntegrityError. -/
theorem integrityErrorIsRaisedExactlyByAMismatchingFourthChk :
    Obligations.IntegrityErrorIsRaisedExactlyByAMismatchingFourthChk := by
  unfold Obligations.IntegrityErrorIsRaisedExactlyByAMismatchingFourthChk
  intro w s t hf h
  simp only [← shiftIn_eq, ← finalXor_eq]
  refine (acceptWord_enters_fault_iff .integrityError hf h).trans ⟨?_, ?_⟩
  · rintro ⟨_, r⟩
    cases r with
    | integrityError b hd hph hidx hne => exact ⟨b, hd, hph, hidx, hne⟩
  · rintro ⟨b, hd, hph, hidx, hne⟩
    exact ⟨_, .integrityError b hd hph hidx hne⟩

/-- Settles O19: the one way to IllegalCommand, which asks nothing of the phase. -/
theorem illegalCommandIsRaisedExactlyByAnIllegalWord : Obligations.IllegalCommandIsRaisedExactlyByAnIllegalWord := by
  unfold Obligations.IllegalCommandIsRaisedExactlyByAnIllegalWord
  intro w s t hf h
  refine (acceptWord_enters_fault_iff .illegalCommand hf h).trans ⟨?_, ?_⟩
  · rintro ⟨_, r⟩
    cases r with
    | illegalCommand k hd => exact ⟨k, hd⟩
  · rintro ⟨k, hd⟩
    exact ⟨_, .illegalCommand k hd⟩

end Sys2Proof.Machine

/-! The step layer: what an event does, what a step is for each thing the host presents, and runs of events (20_memory.md
rules R51, R52 and R60; 70_reset_and_hazards.md rules R180, R190 and R191). -/

namespace Sys2Proof.Machine

/-! ### One event -/

/-- An event puts nothing on the command channel and takes nothing off it. -/
theorem acceptEvent_keeps_input {e : HostEvent} {s t : State} (h : acceptEvent e s = .next t) : t.input = s.input := by
  have hput : acceptEvent e s = .next { t with input := s.input } := acceptEvent_input h s.input
  have heq : t = { t with input := s.input } := Host.Outcome.next.inj (h.symm.trans hput)
  rw [heq]

/-- An event that is not answered is one of the two forms of hardware reset. -/
theorem acceptEvent_of_not_answered {e : HostEvent} (he : answered e = false) (s : State) :
    acceptEvent e s = .next (takeHardwareReset s) := by
  cases e with
  | command w => cases he
  | hardwareReset => rfl
  | resetDuring w => rfl

/-- A command is answered once. -/
theorem acceptEvent_output_of_command {w : CmdWord} {s t : State} (h : acceptEvent (.command w) s = .next t) :
    ∃ r, t.output = s.output ++ [r] := by
  obtain ⟨u, r, hu, hr⟩ := acceptWord_respondsOnce w s
  obtain rfl : t = u := Host.Outcome.next.inj (h.symm.trans hu)
  exact ⟨r, hr⟩

/-- An event adds as many responses as it is answered commands. -/
theorem acceptEvent_output {e : HostEvent} {s t : State} (h : acceptEvent e s = .next t) :
    ∃ ws, t.output = s.output ++ ws ∧ ws.length = [e].countP answered := by
  cases e with
  | command w =>
    obtain ⟨r, hr⟩ := acceptEvent_output_of_command h
    exact ⟨[r], hr, rfl⟩
  | hardwareReset | resetDuring _ =>
    cases h
    exact ⟨[], (List.append_nil _).symm, rfl⟩

/-! ### One step -/

theorem step_of_no_input {s : State} (h : s.input = []) : step s = .next s := by
  simp [step, runNextEvent, h]

theorem step_of_event {s : State} {e : HostEvent} {rest : List HostEvent} (h : s.input = e :: rest) :
    step s = acceptEvent e { s with input := rest } := by
  simp [step, runNextEvent, h]

/-- A step keeps what every event keeps and what does not depend on the command channel. -/
theorem step_keeps {P : State → Prop} (hkeep : ∀ {e s t}, P s → acceptEvent e s = .next t → P t)
    (hchannel : ∀ {s} (input), P s → P { s with input := input }) {s t : State} (hs : P s) (h : step s = .next t) : P t := by
  cases hin : s.input with
  | nil =>
    cases (step_of_no_input hin).symm.trans h
    exact hs
  | cons e rest =>
    rw [step_of_event hin] at h
    exact hkeep (hchannel rest hs) h

/-- Settles O10: the step of an event, and the two ways a word is accepted. -/
theorem stepRunsTheDecodedInstruction : Obligations.StepRunsTheDecodedInstruction := by
  unfold Obligations.StepRunsTheDecodedInstruction
  exact ⟨fun _ _ _ _ hin hd => (step_of_event hin).trans (acceptWord_legal hd _),
    fun _ _ _ _ hin hd => (step_of_event hin).trans (acceptWord_illegal hd _), fun _ => step_of_no_input⟩

/-- Settles O11: an event that is not answered is a reset, which leaves the responses. -/
theorem hardwareResetWinsAndIsNotAnswered : Obligations.HardwareResetWinsAndIsNotAnswered := by
  unfold Obligations.HardwareResetWinsAndIsNotAnswered
  intro s e rest he hin
  rw [step_of_event hin, acceptEvent_of_not_answered he]
  rfl

/-- In phase `FAULT` any event but the `RST` word and a hardware reset is answered with the recorded cause. -/
theorem acceptEvent_leaves_fault {e : HostEvent} {s t : State} (hf : s.ph = .fault) (h : acceptEvent e s = .next t)
    (ht : t.ph ≠ .fault) :
    (e = .command 0x7000#16 ∨ answered e = false) ∧ registers t = registers State.reset := by
  cases e with
  | hardwareReset | resetDuring _ =>
    cases h
    exact ⟨.inr rfl, rfl⟩
  | command w =>
    change acceptWord w s = .next t at h
    by_cases hw : w = 0x7000#16
    · subst hw
      cases (acceptWord_rst s).symm.trans h
      exact ⟨.inl rfl, rfl⟩
    · cases (acceptWord_of_fault hw hf).symm.trans h
      exact absurd hf ht

/-- Settles O15: a step out of phase `FAULT` is one of the events that leave it. -/
theorem onlyResetLeavesTheFaultPhase : Obligations.OnlyResetLeavesTheFaultPhase := by
  unfold Obligations.OnlyResetLeavesTheFaultPhase
  intro s t hf h ht
  cases hin : s.input with
  | nil =>
    cases (step_of_no_input hin).symm.trans h
    exact absurd hf ht
  | cons e rest =>
    rw [step_of_event hin] at h
    obtain ⟨he, hregs⟩ := acceptEvent_leaves_fault (s := { s with input := rest }) hf h ht
    exact ⟨⟨e, rest, rfl, he⟩, hregs⟩

/-- A command that enters `VPASS` is the fourth `CHK` of a record with an equal check. -/
theorem exec_enters_vpass {i : Instr} {s t : State} (h : exec i s = .next t) (ht : t.ph = .vpass) (hs : s.ph ≠ .vpass) :
    ∃ b, i = .chk b ∧ s.ph ∈ [Phase.vmsg, .vchk] ∧ s.idx = 3#2 ∧ shiftIn s.exp b = finalXor s.acc ∧
      t = respond .pass { s with exp := shiftIn s.exp b, idx := 0#2, ph := .vpass } := by
  cases effect_of_exec h with
  | taken b hi hph =>
    obtain ⟨_, htake⟩ | ⟨hidx, heq, htake⟩ | ⟨_, _, htake⟩ := takeCheckByte_cases b s
    · simp [htake] at ht
    · exact ⟨b, hi, by simpa using hph, hidx, heq, htake⟩
    · simp [htake] at ht
  | opened p hi => obtain ⟨_, rfl⟩ | ⟨_, rfl⟩ := hi <;> cases ht
  | emitted => obtain ⟨_, hemit⟩ | ⟨_, hemit⟩ := afterEmit_cases s <;> simp [hemit] at ht
  | sticky | nothing | absorbed => exact absurd ht hs
  | reset | refused | truncated | closed => cases ht

/-- Settles O22: of all a step can be, only an accepted `CHK` word enters `VPASS`. -/
theorem passComesOnlyFromAMatchingFourthChk : Obligations.PassComesOnlyFromAMatchingFourthChk := by
  unfold Obligations.PassComesOnlyFromAMatchingFourthChk
  intro s t h ht hs
  simp only [passed, beq_iff_eq, beq_eq_false_iff_ne] at ht hs
  obtain ⟨_, hstep⟩ | ⟨w, rest, hin, hstep⟩ | ⟨_, _, _, _, hstep⟩ := step_cases s
  · cases hstep.symm.trans h
    exact absurd ht hs
  · rw [hstep] at h
    cases hd : decode w with
    | illegal k =>
      rw [acceptWord_illegal hd] at h
      cases h
      obtain ⟨_, hr⟩ | ⟨_, hr⟩ := rejectIllegal_cases { s with input := rest }
      · rw [hr] at ht
        exact absurd ht hs
      · rw [hr] at ht
        cases ht
    | legal i =>
      rw [acceptWord_legal hd] at h
      obtain ⟨b, rfl, hph, hidx, heq, rfl⟩ := exec_enters_vpass h ht hs
      refine ⟨b, rest, ?_, hph, hidx, heq, rfl⟩
      rw [hin, ← encode_eq_of_decode hd, encode_chk]
  · cases hstep.symm.trans h
    cases ht

/-! ### Runs -/

/-- A run over a first event and more ends where it does after the first event. -/
theorem runEvents_cons_eq_next_iff {e : HostEvent} {es : List HostEvent} {s t : State} :
    runEvents (e :: es) s = .next t ↔ ∃ u, acceptEvent e s = .next u ∧ runEvents es u = .next t := by
  obtain ⟨u, hu⟩ := acceptEvent_next e s
  rw [runEvents_cons hu]
  constructor
  · exact fun h => ⟨u, hu, h⟩
  · rintro ⟨v, hv, h⟩
    obtain rfl : u = v := Host.Outcome.next.inj (hu.symm.trans hv)
    exact h

/-- A run consumes exactly its events and ends. -/
theorem runEvents_next (es : List HostEvent) (s : State) : ∃ t, runEvents es s = .next t ∧ t.input = s.input := by
  induction es generalizing s with
  | nil => exact ⟨s, rfl, rfl⟩
  | cons e es ih =>
    obtain ⟨u, hu⟩ := acceptEvent_next e s
    obtain ⟨t, ht, hin⟩ := ih u
    exact ⟨t, (runEvents_cons hu).trans ht, hin.trans (acceptEvent_keeps_input hu)⟩

/-- What every event keeps, every run keeps. -/
theorem runEvents_keeps {P : State → Prop} (hkeep : ∀ {e s t}, P s → acceptEvent e s = .next t → P t)
    {es : List HostEvent} {s t : State} (hs : P s) (h : runEvents es s = .next t) : P t := by
  induction es generalizing s with
  | nil =>
    cases h
    exact hs
  | cons e es ih =>
    obtain ⟨u, hu, hrun⟩ := runEvents_cons_eq_next_iff.mp h
    exact ih (hkeep hs hu) hrun

/-- A run adds as many responses as it has answered commands. -/
theorem runEvents_output {es : List HostEvent} {s t : State} (h : runEvents es s = .next t) :
    ∃ ws, t.output = s.output ++ ws ∧ ws.length = es.countP answered := by
  induction es generalizing s with
  | nil =>
    obtain rfl : s = t := Host.Outcome.next.inj h
    exact ⟨[], by simp, rfl⟩
  | cons e es ih =>
    obtain ⟨u, hu, hrun⟩ := runEvents_cons_eq_next_iff.mp h
    obtain ⟨vs, hvs, hvlen⟩ := acceptEvent_output hu
    obtain ⟨ws, hws, hwlen⟩ := ih hrun
    exact ⟨vs ++ ws, by rw [hws, hvs, List.append_assoc],
      by rw [List.length_append, hvlen, hwlen, ← List.countP_append, List.singleton_append]⟩

/-- Settles O25: every event has a next state, and a run is one event after another. -/
theorem everyStepHasANextState : Obligations.EveryStepHasANextState := by
  unfold Obligations.EveryStepHasANextState
  refine ⟨fun s => ?_, runEvents_next⟩
  cases hin : s.input with
  | nil => exact ⟨s, step_of_no_input hin⟩
  | cons e rest =>
    rw [step_of_event hin]
    exact acceptEvent_next e _

/-- Settles O26: an event adds one response if it is an answered command and none otherwise, and a run adds them up. -/
theorem everyCommandGetsExactlyOneResponse : Obligations.EveryCommandGetsExactlyOneResponse := by
  unfold Obligations.EveryCommandGetsExactlyOneResponse
  refine ⟨fun s t w rest hin h => ?_, fun s t e rest hin he h => ?_, fun s t hin h => ?_, fun _ _ _ => runEvents_output⟩
  · rw [step_of_event hin] at h
    obtain ⟨r, hr⟩ := acceptEvent_output_of_command h
    exact ⟨r, hr, acceptEvent_keeps_input h⟩
  · rw [step_of_event hin, acceptEvent_of_not_answered he] at h
    cases h
    exact ⟨rfl, rfl⟩
  · rw [step_of_no_input hin] at h
    cases h
    rfl

/-- Settles O27: by induction over the first list, each event taking the state on. -/
theorem runsComposeInOrder : Obligations.RunsComposeInOrder := by
  unfold Obligations.RunsComposeInOrder
  intro es fs s t h
  induction es generalizing s with
  | nil =>
    cases h
    rfl
  | cons e es ih =>
    obtain ⟨u, hu, hrun⟩ := runEvents_cons_eq_next_iff.mp h
    rw [List.cons_append, runEvents_cons hu, ih u hrun]

end Sys2Proof.Machine

/-! The operand layer: check bytes shifted into `EXP` as numbers, and the wire order of a check (20_memory.md rules R53 and
R56; 43_verify.md rule R140). -/

namespace Sys2Proof.Machine

theorem toNat_append_byte {w : Nat} (x : BitVec w) (b : Byte) : (x ++ b).toNat = 256 * x.toNat + b.toNat := by
  rw [BitVec.toNat_append, ← Nat.shiftLeft_add_eq_or_of_lt b.isLt, Nat.shiftLeft_eq, Nat.mul_comm]

/-- Shifting a byte in drops the top byte and puts the new one at the bottom. -/
theorem shiftIn_toNat (e : Word32) (b : Byte) : (shiftIn e b).toNat = (256 * e.toNat + b.toNat) % 2 ^ 32 := by
  have hdrop : e.toNat <<< 8 % 2 ^ 32 = (e.toNat % 2 ^ 24) <<< 8 := by
    simp only [Nat.shiftLeft_eq]
    omega
  have hb : (b.setWidth 32).toNat = b.toNat := BitVec.toNat_setWidth_of_le (by decide)
  rw [shiftIn_eq, BitVec.toNat_or, BitVec.toNat_shiftLeft, hb, hdrop, ← Nat.shiftLeft_add_eq_or_of_lt b.isLt,
    Nat.shiftLeft_eq]
  omega

theorem bigEndian_toNat (b0 b1 b2 b3 : Byte) :
    (bigEndian b0 b1 b2 b3).toNat = 256 * (256 * (256 * b0.toNat + b1.toNat) + b2.toNat) + b3.toNat := by
  simp only [bigEndian, toNat_append_byte]

/-- Four bytes shifted in leave nothing of the value before. -/
theorem foldl_shiftIn_four (e : Word32) (b0 b1 b2 b3 : Byte) : [b0, b1, b2, b3].foldl shiftIn e = bigEndian b0 b1 b2 b3 := by
  apply BitVec.eq_of_toNat_eq
  simp only [List.foldl_cons, List.foldl_nil, shiftIn_toNat, bigEndian_toNat]
  omega

/-- A check is the concatenation of its wire bytes. -/
theorem bigEndian_wireBytes (c : Word32) :
    bigEndian (c.extractLsb' 24 8) (c.extractLsb' 16 8) (c.extractLsb' 8 8) (c.extractLsb' 0 8) = c := by
  apply BitVec.eq_of_toNat_eq
  simp only [bigEndian_toNat, BitVec.extractLsb'_toNat, Nat.shiftRight_eq_div_pow]
  omega

theorem wireBytes_bigEndian (b0 b1 b2 b3 : Byte) : wireBytes (bigEndian b0 b1 b2 b3) = [b0, b1, b2, b3] := by
  simp only [wireBytes, List.cons.injEq, and_true]
  refine ⟨?_, ?_, ?_, ?_⟩ <;> apply BitVec.eq_of_toNat_eq <;>
    rw [BitVec.extractLsb'_toNat, bigEndian_toNat, Nat.shiftRight_eq_div_pow] <;> omega

/-- The wire bytes of a check, shifted into a cleared `EXP`, give the check. -/
theorem foldl_shiftIn_wireBytes (c : Word32) : (wireBytes c).foldl shiftIn 0#32 = c :=
  (foldl_shiftIn_four 0#32 _ _ _ _).trans (bigEndian_wireBytes c)

theorem wireBytes_injective : Function.Injective wireBytes :=
  Function.LeftInverse.injective (g := List.foldl shiftIn 0#32) foldl_shiftIn_wireBytes

theorem bigEndian_eq_iff (b0 b1 b2 b3 : Byte) (c : Word32) : bigEndian b0 b1 b2 b3 = c ↔ [b0, b1, b2, b3] = wireBytes c := by
  rw [← wireBytes_bigEndian, wireBytes_injective.eq_iff]

/-- Settles O41: four bytes shifted in are their concatenation, and a check is the concatenation of its wire bytes. -/
theorem wireOrderIsBigEndianBothWays : Obligations.WireOrderIsBigEndianBothWays := by
  unfold Obligations.WireOrderIsBigEndianBothWays
  exact ⟨fun _ => rfl, foldl_shiftIn_wireBytes, foldl_shiftIn_four 0#32,
    wireBytes_bigEndian⟩

end Sys2Proof.Machine

/-! The invariant layer: the register invariants (a) to (h) of 10_state.md rule R29 under each operation, and the response
words of 30_encoding.md rule R78. -/

namespace Sys2Proof.Machine

/-! ### The register invariants under each operation -/

theorem regInv_reset : RegInv State.reset := by
  constructor <;> decide

theorem succ_ne_zero_of_ne_last {idx : BitVec 2} (h : idx ≠ 3#2) : idx + 1#2 ≠ 0#2 := by
  revert idx; decide

section RegInv

variable {s : State} (hs : RegInv s)

include hs

/-- The invariants do not look at the channels. -/
theorem RegInv.of_channels (input : List HostEvent) (output : List RspWord) :
    RegInv { s with input := input, output := output } :=
  { hs with }

theorem RegInv.respond (r : Response) : RegInv (respond r s) := hs.of_channels s.input _

theorem RegInv.answerFault : RegInv (answerFault s) := hs.respond _

theorem RegInv.cause_eq_zero (hf : s.ph ≠ .fault) : s.cause = 0#3 := by
  by_contra hc
  exact hf (hs.faultIffCause.mpr hc)

/-- A new record satisfies every clause about the message phases. -/
theorem RegInv.openRecord {p : Phase} (hp : p = .gmsg ∨ p = .vmsg) (hf : s.ph ≠ .fault) : RegInv (openRecord p s) := by
  have hc := hs.cause_eq_zero hf
  obtain rfl | rfl := hp <;> constructor <;> simp [hc]

/-- No clause about the message phases looks at `ACC`. -/
theorem RegInv.of_acc (hph : s.ph = .gmsg ∨ s.ph = .vmsg) (a : Word32) : RegInv { s with acc := a } := by
  have hc : s.cause = 0#3 := hs.cause_eq_zero (by obtain h | h := hph <;> simp [h])
  have hidx : s.idx = 0#2 := hs.idxZero (by obtain h | h := hph <;> simp [h])
  have hexp : s.exp = 0#32 := hs.expZero (by obtain h | h := hph <;> simp [h])
  obtain h | h := hph <;> constructor <;> simp [h, hc, hidx, hexp]

/-- Closing a value-only generation keeps `EXP` and `IDX` at 0. -/
theorem RegInv.closeGeneration (hph : s.ph = .gmsg) : RegInv { s with ph := .gdone } := by
  have hc : s.cause = 0#3 := hs.cause_eq_zero (by simp [hph])
  have hidx : s.idx = 0#2 := hs.idxZero (by simp [hph])
  have hexp : s.exp = 0#32 := hs.expZero (by simp [hph])
  constructor <;> simp [hc, hidx, hexp]

/-- The index moves on and is not 0, or the record ends with the index 0. -/
theorem RegInv.afterEmit (hph : s.ph = .gmsg ∨ s.ph = .gout) : RegInv (afterEmit s) := by
  have hc : s.cause = 0#3 := hs.cause_eq_zero (by obtain h | h := hph <;> simp [h])
  have hexp : s.exp = 0#32 := hs.expZero (by obtain h | h := hph <;> simp [h])
  obtain ⟨_, h⟩ | ⟨hidx, h⟩ := afterEmit_cases s
  · rw [h]
    constructor <;> simp [hc, hexp]
  · have hne := succ_ne_zero_of_ne_last hidx
    rw [h]
    constructor <;> simp [hc, hexp, hne]

end RegInv

/-- A raise satisfies every clause but the one on a mismatch, whatever the state was. -/
theorem regInv_raise {c : Cause} {s : State} (hmis : c = .integrityError → s.exp ≠ finalXor s.acc ∧ s.idx = 0#2) :
    RegInv (raise c s) where
  faultIffCause := by cases c <;> simp [causeCode]
  causeInRange := by cases c <;> simp [causeCode]
  idxZero := by simp
  idxNonzero := by simp
  idleValues := by simp
  expZero := by simp
  expPartial := by simp
  passEqual := by simp
  mismatchDiffers _ hcode := hmis (causeCode_injective hcode)

/-- A byte shifted into a value of at most 3 bytes gives one of a byte more. -/
theorem shiftIn_ushiftRight_eq_zero {e : Word32} {k : Nat} (b : Byte) (h : e >>> (8 * k) = 0#32) :
    shiftIn e b >>> (8 * (k + 1)) = 0#32 := by
  have he : e.toNat < 2 ^ (8 * k) := by
    have hnat := congrArg BitVec.toNat h
    simpa [BitVec.toNat_ushiftRight, Nat.shiftRight_eq_div_pow] using hnat
  apply BitVec.eq_of_toNat_eq
  rw [BitVec.toNat_ushiftRight, Nat.shiftRight_eq_div_pow, shiftIn_toNat, BitVec.toNat_ofNat, Nat.zero_mod]
  refine Nat.div_eq_of_lt ((Nat.mod_le _ _).trans_lt ?_)
  have hpow : 2 ^ (8 * (k + 1)) = 256 * 2 ^ (8 * k) := by rw [Nat.mul_succ, Nat.pow_add, Nat.mul_comm]
  rw [hpow]
  omega

theorem toNat_succ_of_ne_last {idx : BitVec 2} (h : idx ≠ 3#2) : (idx + 1#2).toNat = idx.toNat + 1 := by
  revert idx; decide

/-- One of the first three stored check bytes leaves `EXP` with as many bytes as `IDX` says. -/
theorem RegInv.takeEarlyByte {s : State} (hs : RegInv s) (hph : s.ph = .vmsg ∨ s.ph = .vchk) (hidx : s.idx ≠ 3#2) (b : Byte) :
    RegInv { s with exp := shiftIn s.exp b, idx := s.idx + 1#2, ph := .vchk } := by
  have hc : s.cause = 0#3 := hs.cause_eq_zero (by obtain h | h := hph <;> simp [h])
  have hne := succ_ne_zero_of_ne_last hidx
  have hexp : s.exp >>> (8 * s.idx.toNat) = 0#32 := by
    obtain h | h := hph
    · rw [hs.expZero (by simp [h]), BitVec.zero_ushiftRight]
    · exact hs.expPartial h
  have hshift : shiftIn s.exp b >>> (8 * (s.idx + 1#2).toNat) = 0#32 := by
    rw [toNat_succ_of_ne_last hidx]
    exact shiftIn_ushiftRight_eq_zero b hexp
  constructor
  case expPartial => exact fun _ => hshift
  all_goals simp [hc, hne]

/-- A pass satisfies every clause, the comparison being clause (g). -/
theorem RegInv.pass {s : State} (hs : RegInv s) (hf : s.ph ≠ .fault) {e : Word32} (heq : e = finalXor s.acc) :
    RegInv { s with exp := e, idx := 0#2, ph := .vpass } := by
  have hc := hs.cause_eq_zero hf
  rw [finalXor_eq] at heq
  constructor <;> simp [hc, heq]

theorem RegInv.takeCheckByte {s : State} (hs : RegInv s) (hph : s.ph = .vmsg ∨ s.ph = .vchk) (b : Byte) :
    RegInv (takeCheckByte b s) := by
  obtain ⟨hidx, h⟩ | ⟨_, heq, h⟩ | ⟨_, hne, h⟩ := takeCheckByte_cases b s
  · rw [h]
    exact (hs.takeEarlyByte hph hidx b).respond .ack
  · rw [h]
    exact (hs.pass (by obtain h | h := hph <;> simp [h]) heq).respond .pass
  · rw [h]
    exact regInv_raise fun _ => ⟨hne, rfl⟩

/-! ### Every step keeps the register invariants (rule R29) -/

/-- Every effect of a command keeps the invariants. -/
theorem Effect.keeps_regInv {i : Instr} {s t : State} (e : Effect i s t) (hs : RegInv s) : RegInv t := by
  cases e with
  | reset => exact regInv_reset.of_channels s.input _
  | sticky => exact hs.answerFault
  | refused => exact regInv_raise nofun
  | truncated => exact regInv_raise nofun
  | nothing => exact hs.respond .ack
  | opened p hp hph =>
    refine (hs.openRecord ?_ ?_).respond .ack
    · exact hp.imp And.right And.right
    · obtain h | h | h := hph <;> simp [h]
  | absorbed b _ hph => exact (hs.of_acc hph _).respond .ack
  | emitted _ hph => exact (hs.afterEmit hph).respond _
  | taken b _ hph => exact hs.takeCheckByte hph b
  | closed _ hph => exact (hs.closeGeneration hph).respond .ack

theorem RegInv.rejectIllegal {s : State} (hs : RegInv s) : RegInv (rejectIllegal s) := by
  obtain ⟨_, h⟩ | ⟨_, h⟩ := rejectIllegal_cases s
  · rw [h]
    exact hs.answerFault
  · rw [h]
    exact regInv_raise nofun

/-- Every event keeps the invariants: a legal word by its effect, an illegal one by its rejection, a reset by the reset. -/
theorem acceptEvent_keeps_regInv {e : HostEvent} {s t : State} (hs : RegInv s) (h : acceptEvent e s = .next t) :
    RegInv t := by
  cases e with
  | command w =>
    change acceptWord w s = .next t at h
    cases hd : decode w with
    | legal i =>
      rw [acceptWord_legal hd] at h
      exact (effect_of_exec h).keeps_regInv hs
    | illegal k =>
      cases (acceptWord_illegal hd s).symm.trans h
      exact hs.rejectIllegal
  | hardwareReset | resetDuring _ =>
    cases h
    exact regInv_reset.of_channels s.input s.output

/-- Settles O30: every event keeps the invariants, and they do not look at the channels. -/
theorem everyStepKeepsTheInvariants : Obligations.EveryStepKeepsTheInvariants := by
  unfold Obligations.EveryStepKeepsTheInvariants
  exact fun s t => step_keeps acceptEvent_keeps_regInv fun {s} input hs => hs.of_channels input s.output

/-! ### The words the unit responds with (30_encoding.md rule R78) -/

/-- The response carries no cause code, or that of one of the four causes. -/
def Produced (r : Response) : Prop := ∀ code, r = .err code → code ∈ [1#3, 2#3, 3#3, 4#3]

theorem producedWord_byte : ∀ b : Byte, producedWord (responseWord (.byte b)) = true := by decide

theorem producedWord_err : ∀ code ∈ [1#3, 2#3, 3#3, 4#3], producedWord (responseWord (.err code)) = true := by decide

theorem producedWord_responseWord {r : Response} (hr : Produced r) : producedWord (responseWord r) = true := by
  cases r with
  | ack | pass => rfl
  | byte b => exact producedWord_byte b
  | err code => exact producedWord_err code (hr code rfl)

theorem produced_causeCode (c : Cause) : Produced (.err (causeCode c)) := by
  rintro _ ⟨⟩
  exact causeCode_mem c

theorem faultCodes : ∀ code : BitVec 3, code ≠ 0#3 → code ≤ 4#3 → code ∈ [1#3, 2#3, 3#3, 4#3] := by decide

/-- In phase `FAULT` the recorded cause is one of the four. -/
theorem RegInv.produced_cause {s : State} (hs : RegInv s) (hf : s.ph = .fault) : Produced (.err s.cause) := by
  rintro _ ⟨⟩
  exact faultCodes s.cause (hs.faultIffCause.mp hf) hs.causeInRange

theorem afterEmit_output (s : State) : (afterEmit s).output = s.output := by
  obtain ⟨_, h⟩ | ⟨_, h⟩ := afterEmit_cases s <;> rw [h]

/-- Every effect of a command adds one of the produced responses. -/
theorem Effect.produced {i : Instr} {s t : State} (e : Effect i s t) (hs : RegInv s) :
    ∃ r, Produced r ∧ t.output = s.output ++ [responseWord r] := by
  cases e with
  | sticky _ hf => exact ⟨_, hs.produced_cause hf, rfl⟩
  | refused => exact ⟨_, produced_causeCode .protocolError, rfl⟩
  | truncated => exact ⟨_, produced_causeCode .formatError, rfl⟩
  | reset | nothing | opened | absorbed | closed => exact ⟨.ack, nofun, rfl⟩
  | emitted => exact ⟨.byte (checkByte (finalXor s.acc) s.idx), nofun, by rw [respond_output, afterEmit_output]⟩
  | taken b =>
    obtain ⟨_, h⟩ | ⟨_, _, h⟩ | ⟨_, _, h⟩ := takeCheckByte_cases b s <;> rw [h]
    · exact ⟨.ack, nofun, rfl⟩
    · exact ⟨.pass, nofun, rfl⟩
    · exact ⟨_, produced_causeCode .integrityError, rfl⟩

theorem rejectIllegal_produced {s : State} (hs : RegInv s) :
    ∃ r, Produced r ∧ (rejectIllegal s).output = s.output ++ [responseWord r] := by
  obtain ⟨hf, h⟩ | ⟨_, h⟩ := rejectIllegal_cases s <;> rw [h]
  · exact ⟨_, hs.produced_cause hf, rfl⟩
  · exact ⟨_, produced_causeCode .illegalCommand, rfl⟩

theorem OutputInv.append {s t : State} (ho : OutputInv s) {r : Response} (hr : Produced r)
    (h : t.output = s.output ++ [responseWord r]) : OutputInv t := by
  intro w hw
  rw [h, List.mem_append, List.mem_singleton] at hw
  obtain hw | rfl := hw
  · exact ho w hw
  · exact producedWord_responseWord hr

/-- Both invariants together, which every event keeps. -/
def Inv (s : State) : Prop := RegInv s ∧ OutputInv s

theorem inv_reset : Inv State.reset := ⟨regInv_reset, List.forall_mem_nil _⟩

theorem acceptEvent_keeps_inv {e : HostEvent} {s t : State} (hs : Inv s) (h : acceptEvent e s = .next t) : Inv t := by
  obtain ⟨hreg, hout⟩ := hs
  refine ⟨acceptEvent_keeps_regInv hreg h, ?_⟩
  cases e with
  | command w =>
    change acceptWord w s = .next t at h
    cases hd : decode w with
    | legal i =>
      rw [acceptWord_legal hd] at h
      obtain ⟨r, hr, ht⟩ := (effect_of_exec h).produced hreg
      exact hout.append hr ht
    | illegal k =>
      cases (acceptWord_illegal hd s).symm.trans h
      obtain ⟨r, hr, ht⟩ := rejectIllegal_produced hreg
      exact hout.append hr ht
  | hardwareReset | resetDuring _ =>
    cases h
    exact hout

/-- Settles O29: the reset registers meet each clause, and no response stands in the list. -/
theorem resetSatisfiesTheInvariants : Obligations.ResetSatisfiesTheInvariants := by
  unfold Obligations.ResetSatisfiesTheInvariants
  exact inv_reset

/-- Settles O31: every event keeps both invariants. -/
theorem everyStepRespondsWithAProducedWord : Obligations.EveryStepRespondsWithAProducedWord := by
  unfold Obligations.EveryStepRespondsWithAProducedWord
  intro s t hreg hout h
  have hchannel : ∀ {s : State} (input), Inv s → Inv { s with input := input } :=
    fun {s} input hs => ⟨hs.1.of_channels input s.output, hs.2⟩
  exact (step_keeps acceptEvent_keeps_inv hchannel ⟨hreg, hout⟩ h).2

/-- Settles O32: both hold at reset and every event keeps them, so every run does. -/
theorem invariantsHoldInEveryReachableState : Obligations.InvariantsHoldInEveryReachableState := by
  unfold Obligations.InvariantsHoldInEveryReachableState
  exact fun es t => runEvents_keeps acceptEvent_keeps_inv inv_reset

end Sys2Proof.Machine

/-! The command layer: which commands raise ProtocolError, which phase a command enters, which registers it leaves, and
which commands are idempotent (10_state.md rules R21 to R26 and R33; 20_memory.md rule R58; 60_exceptions.md rule R153). -/

namespace Sys2Proof.Machine

/-! ### ProtocolError (60_exceptions.md rule R153) -/

/-- The phases in which a command raises ProtocolError. -/
def raisingPhases : Instr → List Phase
  | .gen | .ver => [.gmsg, .gout, .vmsg, .vchk]
  | .feed _ => [.idle, .gout, .vchk, .gdone, .vpass]
  | .emit => [.idle, .vmsg, .vchk, .gdone, .vpass]
  | .chk _ => [.idle, .gmsg, .gout, .gdone, .vpass]
  | .endInput => [.gout]
  | .nop | .rst => []

/-- The rule lists the same by phase. -/
theorem mnemonic_mem_protocolErrorIn_iff (i : Instr) (p : Phase) :
    mnemonic i ∈ protocolErrorIn p ↔ p ∈ raisingPhases i := by
  cases p <;> cases i <;> simp [protocolErrorIn, raisingPhases, mnemonic]

theorem exec_of_raisingPhases {i : Instr} {s : State} (h : s.ph ∈ raisingPhases i) :
    exec i s = .next (raise .protocolError s) := by
  cases i with
  | nop | rst => cases h
  | gen => exact opens_gen.exec_inside h
  | ver => exact opens_ver.exec_inside h
  | feed b => exact exec_feed_elsewhere h
  | emit => exact exec_emit_elsewhere h
  | chk b => exact exec_chk_elsewhere h
  | endInput => exact exec_endInput_gout (List.mem_singleton.mp h)

/-- A command that leaves another phase or another cause does not raise. -/
theorem exec_ne_raise {i : Instr} {s t : State} {c : Cause} (h : exec i s = .next t)
    (ht : t.ph ≠ .fault ∨ t.cause ≠ causeCode c) : exec i s ≠ .next (raise c s) := by
  intro heq
  obtain rfl : t = raise c s := Host.Outcome.next.inj (h.symm.trans heq)
  simp at ht

theorem between_of_not_inside {p : Phase} (hf : p ≠ .fault) (h : p ∉ [Phase.gmsg, .gout, .vmsg, .vchk]) :
    p ∈ betweenRecords := by
  cases p <;> simp_all [betweenRecords]

/-- In every other phase but `FAULT` the command has an effect of its own rule. -/
theorem exec_ne_raise_of_not_raisingPhases {i : Instr} {s : State} (hf : s.ph ≠ .fault) (h : s.ph ∉ raisingPhases i) :
    exec i s ≠ .next (raise .protocolError s) := by
  cases i with
  | nop => exact exec_ne_raise (exec_nop_of_ne_fault hf) (.inl hf)
  | rst => exact exec_ne_raise (exec_rst s) (.inl (by simp))
  | gen => exact exec_ne_raise (opens_gen.exec_between (between_of_not_inside hf h)) (.inl (by simp))
  | ver => exact exec_ne_raise (opens_ver.exec_between (between_of_not_inside hf h)) (.inl (by simp))
  | feed b =>
    have hph : s.ph ∈ [Phase.gmsg, .vmsg] := by cases hp : s.ph <;> simp_all [raisingPhases]
    exact exec_ne_raise (exec_feed_message hph) (.inl hf)
  | emit =>
    have hph : s.ph ∈ [Phase.gmsg, .gout] := by cases hp : s.ph <;> simp_all [raisingPhases]
    refine exec_ne_raise (exec_emit_generating hph) (.inl ?_)
    obtain ⟨_, h⟩ | ⟨_, h⟩ := afterEmit_cases s <;> simp [h]
  | chk b =>
    have hph : s.ph ∈ [Phase.vmsg, .vchk] := by cases hp : s.ph <;> simp_all [raisingPhases]
    refine exec_ne_raise (exec_chk_verifying hph) ?_
    obtain ⟨_, h⟩ | ⟨_, _, h⟩ | ⟨_, _, h⟩ := takeCheckByte_cases b s <;> simp [h, causeCode]
  | endInput =>
    obtain hph | hph | hph : s.ph ∈ betweenRecords ∨ s.ph = .gmsg ∨ s.ph ∈ [Phase.vmsg, .vchk] := by
      cases hp : s.ph <;> simp_all [raisingPhases, betweenRecords]
    · exact exec_ne_raise (exec_endInput_between hph) (.inl hf)
    · exact exec_ne_raise (exec_endInput_gmsg hph) (.inl (by simp))
    · exact exec_ne_raise (exec_endInput_verifying hph) (.inr (by simp [causeCode]))

/-- Settles O18: the one way to ProtocolError is a command in one of its raising phases. -/
theorem protocolErrorIsRaisedExactlyAsListed : Obligations.ProtocolErrorIsRaisedExactlyAsListed := by
  unfold Obligations.ProtocolErrorIsRaisedExactlyAsListed
  intro w s t hf h
  simp only [mnemonic_mem_protocolErrorIn_iff]
  refine (acceptWord_enters_fault_iff .protocolError hf h).trans ⟨?_, ?_⟩
  · rintro ⟨_, r⟩
    cases r with
    | protocolError i hd hexec =>
      exact ⟨i, hd, Decidable.not_not.mp fun hn => exec_ne_raise_of_not_raisingPhases hf hn hexec⟩
  · rintro ⟨i, hd, hi⟩
    exact ⟨_, .protocolError i hd (exec_of_raisingPhases hi)⟩

/-! ### The phase a command enters (10_state.md rule R23) -/

theorem phaseCode_phaseOfCode : ∀ c : BitVec 3, phaseCode (phaseOfCode c) = c := by decide

theorem raise_enters_fault (c : Cause) (s : State) :
    (raise c s).cause ≠ 0#3 ∧ (raise c s).output = s.output ++ [errWord (raise c s).cause] := by
  rw [raise_eq]
  exact ⟨by cases c <;> simp [causeCode], rfl⟩

/-- Settles O20: each effect enters one phase, or none. -/
theorem phasesAreEnteredAsTheTableSays : Obligations.PhasesAreEnteredAsTheTableSays := by
  unfold Obligations.PhasesAreEnteredAsTheTableSays
  refine ⟨rfl, phaseCode_phaseOfCode, fun i s t h hne => ?_⟩
  cases effect_of_exec h with
  | sticky | nothing | absorbed => exact absurd rfl hne
  | reset hi => simp [hi]
  | refused => simpa using raise_enters_fault .protocolError s
  | truncated => simpa using raise_enters_fault .formatError s
  | opened p hp => obtain ⟨rfl, rfl⟩ | ⟨rfl, rfl⟩ := hp <;> simp
  | emitted hi => obtain ⟨hidx, h⟩ | ⟨hidx, h⟩ := afterEmit_cases s <;> simp [h, hi, hidx]
  | taken b hi =>
    obtain ⟨_, htake⟩ | ⟨hidx, heq, htake⟩ | ⟨_, _, htake⟩ := takeCheckByte_cases b s
    · simp [htake, hi]
    · simp [htake, hi, hidx, heq, finalXor_eq]
    · simpa [htake] using raise_enters_fault .integrityError { s with exp := shiftIn s.exp b, idx := 0#2 }
  | closed hi hph => simp [hi, hph]

/-! ### The registers a command leaves (10_state.md rules R21, R22, R24, R26 and R33) -/

/-- Settles O21: each effect writes the registers of its own command, and a raise only `PH` and `CAUSE`. -/
theorem commandsLeaveTheOtherRegisters : Obligations.CommandsLeaveTheOtherRegisters := by
  unfold Obligations.CommandsLeaveTheOtherRegisters
  intro i s t h
  cases effect_of_exec h with
  | sticky | nothing => simp
  | reset hi => simp [hi, mnemonic]
  | refused _ _ hf => simp [hf]
  | truncated _ hph => obtain h | h := hph <;> simp [h]
  | opened p hp => obtain ⟨rfl, rfl⟩ | ⟨rfl, rfl⟩ := hp <;> simp [mnemonic]
  | absorbed b hi => simp [hi, mnemonic]
  | emitted hi => obtain ⟨_, h⟩ | ⟨_, h⟩ := afterEmit_cases s <;> simp [h, hi, mnemonic]
  | taken b hi hph =>
    have hf : s.ph ≠ .fault := by obtain h | h := hph <;> simp [h]
    obtain ⟨_, h⟩ | ⟨_, _, h⟩ | ⟨_, _, h⟩ := takeCheckByte_cases b s <;> simp [h, hi, hf, mnemonic]
  | closed hi => simp [hi, mnemonic]

/-! ### Idempotent commands (20_memory.md rule R58) -/

theorem registers_exec_nop {s t : State} (h : exec .nop s = .next t) : registers t = registers s := by
  by_cases hf : s.ph = .fault
  · cases (exec_of_fault (by decide) hf).symm.trans h
    rfl
  · cases (exec_nop_of_ne_fault hf).symm.trans h
    rfl

theorem registers_exec_rst {s t : State} (h : exec .rst s = .next t) : registers t = registers State.reset := by
  cases (exec_rst s).symm.trans h
  rfl

theorem registers_exec_endInput_between {s t : State} (hph : s.ph ∈ betweenRecords) (h : exec .endInput s = .next t) :
    registers t = registers s := by
  cases (exec_endInput_between hph).symm.trans h
  rfl

/-- Settles O24: `NOP` and `END` between records leave the registers, and `RST` gives one value whatever they were. -/
theorem nopEndAndRstAreIdempotent : Obligations.NopEndAndRstAreIdempotent := by
  unfold Obligations.NopEndAndRstAreIdempotent
  rintro i s t u ht hu (rfl | rfl | ⟨rfl, hph⟩)
  · exact registers_exec_nop hu
  · rw [registers_exec_rst hu, registers_exec_rst ht]
  · have hregs := registers_exec_endInput_between hph ht
    have hph' : t.ph = s.ph := congrArg Prod.fst hregs
    exact registers_exec_endInput_between (hph' ▸ hph) hu

end Sys2Proof.Machine

/-! The encoding layer, second part: the legal words by their fields and as a list, and the assembler's lines (30_encoding.md
rules R70 to R74 and R80). -/

namespace Sys2Proof.Machine

/-- Settles O34: `decode_encode` asks nothing of the instruction, every value of the type being well formed. -/
theorem decodeOfEncodeIsTheInstruction : Obligations.DecodeOfEncodeIsTheInstruction := by
  unfold Obligations.DecodeOfEncodeIsTheInstruction
  exact fun i _ => decode_encode i

/-- Settles O35: `encode_eq_of_decode`, branch by branch of `decode`. -/
theorem encodeOfDecodeIsTheWord : Obligations.EncodeOfDecodeIsTheWord := by
  unfold Obligations.EncodeOfDecodeIsTheWord
  exact fun _ _ => encode_eq_of_decode

/-- Settles O33: fourteen words decoded. -/
theorem decodeReadsTheWrittenOutWords : Obligations.DecodeReadsTheWrittenOutWords := by
  unfold Obligations.DecodeReadsTheWrittenOutWords
  exact ⟨by decide, by decide⟩

/-! ### The fields of a word as numbers (rule R70) -/

section Fields

variable (w : CmdWord)

theorem opField_toNat : (opField w).toNat = w.toNat / 4096 := by
  rw [opField, BitVec.extractLsb'_toNat, Nat.shiftRight_eq_div_pow]
  omega

theorem zeroField_toNat : (zeroField w).toNat = w.toNat / 256 % 16 := by
  rw [zeroField, BitVec.extractLsb'_toNat, Nat.shiftRight_eq_div_pow]

theorem imm8Field_toNat : (imm8Field w).toNat = w.toNat % 256 := by
  rw [imm8Field, BitVec.extractLsb'_toNat, Nat.shiftRight_zero]

/-- A word is its three fields. -/
theorem fields_append : opField w ++ zeroField w ++ imm8Field w = w := by
  rw [opField, zeroField, imm8Field]
  exact (congrArg (· ++ w.extractLsb' 0 8) (BitVec.extractLsb'_append_extractLsb'_eq_extractLsb' rfl)).trans
    ((BitVec.extractLsb'_append_extractLsb'_eq_extractLsb' rfl).trans BitVec.extractLsb'_eq_self)

/-- The three checks on a word, as the rule states the classes. -/
theorem wellFormedWord_iff : wellFormedWord w = true ↔
    w.toNat / 4096 < 8 ∧ w.toNat / 256 % 16 = 0 ∧
      (w.toNat % 256 = 0 ∨ w.toNat / 4096 = 3 ∨ w.toNat / 4096 = 5) := by
  have hop : opAssigned w = true ↔ (opField w).toNat < 8 := decide_eq_true_iff
  have hzero : zeroFieldClear w = true ↔ (zeroField w).toNat = 0 := by
    rw [zeroFieldClear, beq_iff_eq, ← BitVec.toNat_inj]
    rfl
  have himm : operandAllowed w = true ↔ (imm8Field w).toNat = 0 ∨ (opField w).toNat = 3 ∨ (opField w).toNat = 5 := by
    simp only [operandAllowed, Bool.or_eq_true, beq_iff_eq, ← BitVec.toNat_inj, or_assoc]
    rfl
  rw [wellFormedWord, Bool.and_eq_true, Bool.and_eq_true, hop, hzero, himm, opField_toNat, zeroField_toNat,
    imm8Field_toNat, and_assoc]

/-- The first of the three checks that fails gives the class. -/
theorem illegalClass_iff :
    (illegalClass w = .reservedOp ↔ 8 ≤ w.toNat / 4096) ∧
    (illegalClass w = .zeroFieldSet ↔ w.toNat / 4096 < 8 ∧ w.toNat / 256 % 16 ≠ 0) ∧
    (illegalClass w = .operandNotAllowed ↔ w.toNat / 4096 < 8 ∧ w.toNat / 256 % 16 = 0) := by
  have hop : 8#4 ≤ opField w ↔ 8 ≤ w.toNat / 4096 := by
    rw [BitVec.le_def, opField_toNat]
    rfl
  have hzero : zeroField w ≠ 0#4 ↔ w.toNat / 256 % 16 ≠ 0 := by
    rw [Ne, ← BitVec.toNat_inj, zeroField_toNat]
    rfl
  simp only [illegalClass, hop, hzero]
  split_ifs with h8 h0
  · simp [h8]
  · simp [h0, Nat.not_le.mp h8]
  · simp [not_not.mp h0, Nat.not_le.mp h8]

end Fields

/-! ### The illegal words (rule R74) -/

theorem assigned_opcodes : ∀ op : BitVec 4, op.toNat < 8 → op ∈ [0#4, 1#4, 2#4, 3#4, 4#4, 5#4, 6#4, 7#4] := by decide

/-- A word with an assigned code, a clear `zero` field and no operand where none is allowed is a command's word. -/
theorem exists_encode_eq {w : CmdWord} (hop : (opField w).toNat < 8) (hzero : zeroField w = 0#4)
    (himm : imm8Field w = 0#8 ∨ opField w = 3#4 ∨ opField w = 5#4) : ∃ i, encode i = w := by
  have hw : formatC (opField w) (imm8Field w) = w := by
    have hfields := fields_append w
    rwa [hzero] at hfields
  have hmem := assigned_opcodes _ hop
  generalize opField w = op at *
  generalize imm8Field w = b at *
  subst hw
  obtain rfl | rfl | rfl := himm
  · simp only [List.mem_cons, List.not_mem_nil, or_false] at hmem
    obtain rfl | rfl | rfl | rfl | rfl | rfl | rfl | rfl := hmem
    · exact ⟨.nop, rfl⟩
    · exact ⟨.gen, rfl⟩
    · exact ⟨.ver, rfl⟩
    · exact ⟨.feed 0#8, rfl⟩
    · exact ⟨.emit, rfl⟩
    · exact ⟨.chk 0#8, rfl⟩
    · exact ⟨.endInput, rfl⟩
    · exact ⟨.rst, rfl⟩
  · exact ⟨.feed b, rfl⟩
  · exact ⟨.chk b, rfl⟩

theorem wordFormat (i : Instr) : Laws.WordFormat.Statement i := by
  cases i with
  | nop => exact Laws.WordFormat.nop
  | gen => exact Laws.WordFormat.gen
  | ver => exact Laws.WordFormat.ver
  | feed b => exact Laws.WordFormat.feed b
  | emit => exact Laws.WordFormat.emit
  | chk b => exact Laws.WordFormat.chk b
  | endInput => exact Laws.WordFormat.endInput
  | rst => exact Laws.WordFormat.rst

/-- The legal words are the well-formed ones. -/
theorem exists_decode_legal_iff (w : CmdWord) : (∃ i, decode w = .legal i) ↔ wellFormedWord w = true := by
  simp only [decode_eq_legal_iff]
  constructor
  · rintro ⟨i, rfl⟩
    obtain ⟨_, _, _, _, hwf⟩ := wordFormat i
    exact hwf
  · intro hwf
    obtain ⟨hop, hzero, himm⟩ := (wellFormedWord_iff w).mp hwf
    rw [← opField_toNat] at hop
    rw [← zeroField_toNat] at hzero
    rw [← imm8Field_toNat, ← opField_toNat] at himm
    exact exists_encode_eq hop (BitVec.eq_of_toNat_eq hzero)
      (himm.imp BitVec.eq_of_toNat_eq (Or.imp BitVec.eq_of_toNat_eq BitVec.eq_of_toNat_eq))

theorem decode_eq_illegal_iff (w : CmdWord) (k : IllegalClass) :
    decode w = .illegal k ↔ ¬ wellFormedWord w = true ∧ illegalClass w = k := by
  rw [← exists_decode_legal_iff]
  constructor
  · intro h
    refine ⟨fun ⟨i, hi⟩ => by simp [hi] at h, ?_⟩
    unfold decode at h
    split_ifs at h
    exact Decoded.illegal.inj h
  · rintro ⟨hno, rfl⟩
    cases hd : decode w with
    | legal i => exact absurd ⟨i, hd⟩ hno
    | illegal k =>
      unfold decode at hd
      split_ifs at hd
      exact hd.symm

/-- Settles O37: the well-formed words are the legal ones, and the first field that fails gives the class. -/
theorem illegalWordsAreExactlyTheThreeClasses : Obligations.IllegalWordsAreExactlyTheThreeClasses := by
  unfold Obligations.IllegalWordsAreExactlyTheThreeClasses
  intro w
  obtain ⟨hreserved, hzero, hoperand⟩ := illegalClass_iff w
  simp only [decode_eq_illegal_iff, exists_decode_legal_iff, wellFormedWord_iff, hreserved, hzero, hoperand, List.mem_cons,
    List.not_mem_nil, or_false, and_true]
  refine ⟨?_, ?_, ?_⟩ <;> omega

/-! ### The legal words as a list (rule R73) -/

/-- Every byte once. -/
def allBytes : List Byte := (List.range 256).map (BitVec.ofNat 8)

theorem mem_allBytes (b : Byte) : b ∈ allBytes :=
  List.mem_map.mpr ⟨b.toNat, List.mem_range.mpr b.isLt, (BitVec.ofNat_toNat 8 b).trans (BitVec.setWidth_eq b)⟩

theorem nodup_allBytes : allBytes.Nodup := by
  refine (List.nodup_map_iff_inj_on List.nodup_range).mpr fun j hj k hk h => ?_
  have heq := congrArg BitVec.toNat h
  rw [List.mem_range] at hj hk
  rwa [BitVec.toNat_ofNat, BitVec.toNat_ofNat, Nat.mod_eq_of_lt hj, Nat.mod_eq_of_lt hk] at heq

/-- Every command once: the 6 without operand, and the 2 families. -/
def allInstrs : List Instr :=
  [.nop, .gen, .ver, .emit, .endInput, .rst] ++ allBytes.map Instr.feed ++ allBytes.map Instr.chk

theorem mem_allInstrs (i : Instr) : i ∈ allInstrs := by
  cases i <;> simp [allInstrs, mem_allBytes]

theorem nodup_allInstrs : allInstrs.Nodup := by
  have hfeed : (allBytes.map Instr.feed).Nodup := nodup_allBytes.map fun _ _ => Instr.feed.inj
  have hchk : (allBytes.map Instr.chk).Nodup := nodup_allBytes.map fun _ _ => Instr.chk.inj
  refine List.Nodup.append (List.Nodup.append (by decide) hfeed ?_) hchk ?_ <;>
    simp [List.Disjoint]

theorem encode_feed_ofNat {k : Nat} (hk : k < 256) : encode (.feed (BitVec.ofNat 8 k)) = BitVec.ofNat 16 (0x3000 + k) := by
  apply BitVec.eq_of_toNat_eq
  rw [encode_feed, toNat_append_byte, BitVec.toNat_ofNat, BitVec.toNat_ofNat, BitVec.toNat_ofNat]
  omega

theorem encode_chk_ofNat {k : Nat} (hk : k < 256) : encode (.chk (BitVec.ofNat 8 k)) = BitVec.ofNat 16 (0x5000 + k) := by
  apply BitVec.eq_of_toNat_eq
  rw [encode_chk, toNat_append_byte, BitVec.toNat_ofNat, BitVec.toNat_ofNat, BitVec.toNat_ofNat]
  omega

theorem legalWords_eq_map_encode : legalWords = allInstrs.map encode := by
  have hfeed : (List.range 256).map (fun k => BitVec.ofNat 16 (0x3000 + k)) = (allBytes.map Instr.feed).map encode := by
    simp only [allBytes, List.map_map]
    exact List.map_congr_left fun k hk => (encode_feed_ofNat (List.mem_range.mp hk)).symm
  have hchk : (List.range 256).map (fun k => BitVec.ofNat 16 (0x5000 + k)) = (allBytes.map Instr.chk).map encode := by
    simp only [allBytes, List.map_map]
    exact List.map_congr_left fun k hk => (encode_chk_ofNat (List.mem_range.mp hk)).symm
  rw [legalWords, hfeed, hchk, allInstrs, List.map_append, List.map_append]
  rfl

theorem encode_injective : Function.Injective encode := by
  intro i j h
  exact Decoded.legal.inj (by rw [← decode_encode i, ← decode_encode j, h])

/-- Settles O38: the list is the words of all commands, and a word is legal when it is some command's. -/
theorem legalWordsAreFiveHundredAndEighteen : Obligations.LegalWordsAreFiveHundredAndEighteen := by
  unfold Obligations.LegalWordsAreFiveHundredAndEighteen
  rw [legalWords_eq_map_encode]
  refine ⟨by simp [allInstrs, allBytes], nodup_allInstrs.map encode_injective, fun w => ?_⟩
  simp only [decode_eq_legal_iff, List.mem_map, mem_allInstrs, true_and]

/-! ### The assembler's lines (rule R80) -/

theorem hexValue_hexDigit : ∀ n < 16, hexValue (hexDigit n) = some n := by decide

/-- The two digits of a byte are read back as the byte. -/
theorem parseOperand_byteText (b : Byte) : parseOperand (byteText b) = some (b, []) := by
  have hhigh := hexValue_hexDigit (b.toNat / 16) (by omega)
  have hlow := hexValue_hexDigit (b.toNat % 16) (by omega)
  have hb : BitVec.ofNat 8 (16 * (b.toNat / 16) + b.toNat % 16) = b := by
    rw [Nat.div_add_mod, BitVec.ofNat_toNat, BitVec.setWidth_eq]
  simp [byteText, parseOperand, hhigh, hlow, hb]

theorem operandCommand_byteText (mk : Byte → Instr) (b : Byte) : operandCommand mk (byteText b) = some (mk b) := by
  simp [operandCommand, parseOperand_byteText, endOfLine]

/-- Settles O40: a line without operand ends after its mnemonic, and an operand is read back as its byte. -/
theorem assemblerReadsWhatItWrites : Obligations.AssemblerReadsWhatItWrites := by
  unfold Obligations.AssemblerReadsWhatItWrites
  intro i
  cases i with
  | feed b => exact operandCommand_byteText .feed b
  | chk b => exact operandCommand_byteText .chk b
  | _ => rfl

end Sys2Proof.Machine

/-! The linear layer: the bit steps as linear bijections, and how the check of a message depends on its bytes (41_absorb.md
rule R119). -/

namespace Sys2Proof.Machine

/-! ### The bit step is linear (rule R119 (a)) -/

/-- The bit step as a shift and a correction by the bit shifted out. -/
theorem bitstep_eq_xor (u : Word32) : bitstep u = (u >>> 1) ^^^ (if u.getLsbD 0 then Config.polyR else 0#32) := by
  unfold bitstep
  split <;> simp

theorem bitstep_zero : bitstep 0#32 = 0#32 := rfl

theorem bitstep_xor (u v : Word32) : bitstep (u ^^^ v) = bitstep u ^^^ bitstep v := by
  have hcorr : (if (u ^^^ v).getLsbD 0 then Config.polyR else 0#32) =
      (if u.getLsbD 0 then Config.polyR else 0#32) ^^^ (if v.getLsbD 0 then Config.polyR else 0#32) := by
    rw [BitVec.getLsbD_xor]
    cases u.getLsbD 0 <;> cases v.getLsbD 0 <;> rfl
  rw [bitstep_eq_xor, bitstep_eq_xor, bitstep_eq_xor, BitVec.ushiftRight_xor_distrib, hcorr]
  ac_rfl

theorem bitsteps_xor (n : Nat) (u v : Word32) : bitsteps n (u ^^^ v) = bitsteps n u ^^^ bitsteps n v := by
  induction n generalizing u v with
  | zero => rfl
  | succ n ih => rw [bitsteps_succ, bitsteps_succ, bitsteps_succ, bitstep_xor, ih]

theorem bitsteps_zero_word (n : Nat) : bitsteps n 0#32 = 0#32 := by
  induction n with
  | zero => rfl
  | succ n ih => rw [bitsteps_succ, bitstep_zero, ih]

/-- Settles O48: linearity of one bit step, iterated. -/
theorem bitStepsAreLinear : Obligations.BitStepsAreLinear := by
  unfold Obligations.BitStepsAreLinear
  exact ⟨bitstep_xor, bitstep_zero, bitsteps_xor 8, bitsteps_zero_word 8⟩

/-! ### The bit step is a bijection (rule R119 (b)) -/

theorem shiftLeft_one_ushiftRight_one {x : Word32} (h : x.getLsbD 31 = false) : x <<< 1 >>> 1 = x := by
  ext i hi
  by_cases htop : i = 31
  · subst htop
    simpa using h.symm
  · have hlow : 1 + i < 32 := by omega
    simp [hlow]

/-- The top bit of the polynomial tells the inverse which bit was shifted out. -/
theorem bitstepInv_rightInverse : Function.RightInverse bitstepInv bitstep := by
  intro v
  cases hv : v.getLsbD 31 with
  | true =>
    have htop : (v ^^^ Config.polyR).getLsbD 31 = false := by
      rw [BitVec.getLsbD_xor, hv]
      rfl
    have hinv : bitstepInv v = (v ^^^ Config.polyR) <<< 1 ||| 1#32 := if_pos hv
    have hshift : ((v ^^^ Config.polyR) <<< 1 ||| 1#32) >>> 1 = v ^^^ Config.polyR := by
      rw [BitVec.ushiftRight_or_distrib, shiftLeft_one_ushiftRight_one htop]
      exact BitVec.or_zero
    rw [hinv, bitstep_of_bit_set (by simp), hshift, BitVec.xor_assoc, BitVec.xor_self, BitVec.xor_zero]
  | false =>
    have hinv : bitstepInv v = v <<< 1 := if_neg (Bool.eq_false_iff.mp hv)
    rw [hinv, bitstep_of_bit_clear (by simp), shiftLeft_one_ushiftRight_one hv]

/-- A map of a finite type onto itself that has a right inverse is a bijection. -/
theorem bitstep_bijective : Function.Bijective bitstep :=
  have hsurj := bitstepInv_rightInverse.surjective
  ⟨Finite.injective_iff_surjective.mpr hsurj, hsurj⟩

theorem bitstepInv_leftInverse : Function.LeftInverse bitstepInv bitstep :=
  Function.LeftInverse.rightInverse_of_injective bitstepInv_rightInverse bitstep_bijective.injective

theorem bitsteps_bijective (n : Nat) : Function.Bijective (bitsteps n) := by
  rw [show bitsteps n = bitstep^[n] from funext (bitsteps_eq_iterate n)]
  exact bitstep_bijective.iterate n

/-- Settles O49: the printed inverse undoes the bit step on both sides, so it and its iterates are bijections. -/
theorem bitStepsAreBijective : Obligations.BitStepsAreBijective := by
  unfold Obligations.BitStepsAreBijective
  exact ⟨bitstep_bijective, bitsteps_bijective 8, bitstepInv_leftInverse, bitstepInv_rightInverse⟩

/-! ### How the check depends on the message (rule R119 (c) to (e)) -/

theorem zext32_xor (b c : Byte) : zext32 (b ^^^ c) = zext32 b ^^^ zext32 c := BitVec.setWidth_xor

theorem zext32_eq_zero_iff (b : Byte) : zext32 b = 0#32 ↔ b = 0#8 := by
  rw [← BitVec.toNat_inj, ← BitVec.toNat_inj, zext32, BitVec.toNat_setWidth_of_le (by decide)]
  rfl

/-- The byte step is linear in register and byte together. -/
theorem absorb_xor (a a' : Word32) (b b' : Byte) : absorb (a ^^^ a') (b ^^^ b') = absorb a b ^^^ absorb a' b' := by
  rw [absorb, absorb, absorb, ← bitsteps_xor, zext32_xor]
  congr 1
  ac_rfl

/-- Two registers that absorb the same message differ by the bit steps of their difference. -/
theorem absorbAll_xor_absorbAll (a a' : Word32) (m : List Byte) :
    absorbAll a m ^^^ absorbAll a' m = bitsteps (8 * m.length) (a ^^^ a') := by
  induction m generalizing a a' with
  | nil => rfl
  | cons b m ih =>
    have hstep : absorb a b ^^^ absorb a' b = bitsteps 8 (a ^^^ a') := by
      have hzero : zext32 0#8 = 0#32 := rfl
      rw [← absorb_xor, BitVec.xor_self, absorb, hzero, BitVec.xor_zero]
    rw [absorbAll_cons, absorbAll_cons, ih, hstep, ← bitsteps_add, List.length_cons, Nat.mul_succ, Nat.add_comm]

theorem crc32_xor_crc32 (m m' : List Byte) : crc32 m ^^^ crc32 m' = fold m ^^^ fold m' := by
  calc fold m ^^^ Config.xorOut ^^^ (fold m' ^^^ Config.xorOut)
      = fold m ^^^ fold m' ^^^ (Config.xorOut ^^^ Config.xorOut) := by ac_rfl
    _ = fold m ^^^ fold m' := by rw [BitVec.xor_self, BitVec.xor_zero]

theorem fold_append_cons (p q : List Byte) (b : Byte) : fold (p ++ b :: q) = absorbAll (absorb (fold p) b) q := by
  rw [fold, absorbAll_append, absorbAll_cons, ← fold]

/-- The difference that one altered byte makes, carried through the bytes after it. -/
theorem fold_xor_fold_of_altered (p q : List Byte) (b c : Byte) :
    fold (p ++ b :: q) ^^^ fold (p ++ c :: q) = bitsteps (8 * (q.length + 1)) (zext32 (b ^^^ c)) := by
  have hstep : absorb (fold p) b ^^^ absorb (fold p) c = bitsteps 8 (zext32 (b ^^^ c)) := by
    rw [← absorb_xor, BitVec.xor_self, absorb, BitVec.zero_xor]
  rw [fold_append_cons, fold_append_cons, absorbAll_xor_absorbAll, hstep, ← bitsteps_add, Nat.mul_succ, Nat.add_comm]

theorem fold_xor_fold_set {m : List Byte} {i : Nat} (h : i < m.length) (c : Byte) :
    fold m ^^^ fold (m.set i c) = bitsteps (8 * (m.length - i)) (zext32 (m[i] ^^^ c)) := by
  have hm : m.take i ++ m[i] :: m.drop (i + 1) = m := by simp
  have hset : m.take i ++ c :: m.drop (i + 1) = m.set i c := (List.set_eq_take_append_cons_drop.trans (if_pos h)).symm
  have hlen : (m.drop (i + 1)).length + 1 = m.length - i := by
    rw [List.length_drop]
    omega
  have hdiff := fold_xor_fold_of_altered (m.take i) (m.drop (i + 1)) m[i] c
  rwa [hm, hset, hlen] at hdiff

/-- Settles O50: the difference is a byte's that is not 0, and bit steps are injective. -/
theorem oneAlteredByteChangesTheCheck : Obligations.OneAlteredByteChangesTheCheck := by
  unfold Obligations.OneAlteredByteChangesTheCheck
  intro m i h c hc
  have hdiff := fold_xor_fold_set h c
  refine ⟨(crc32_xor_crc32 _ _).trans hdiff, (crc32_xor_crc32 _ _).symm, fun heq => ?_⟩
  rw [← crc32_xor_crc32, heq, BitVec.xor_self, ← bitsteps_zero_word (8 * (m.length - i))] at hdiff
  have hzero := (zext32_eq_zero_iff _).mp ((bitsteps_bijective _).injective hdiff).symm
  exact hc (BitVec.xor_eq_zero_iff.mp hzero).symm

theorem absorbAll_xorMessages {m m' : List Byte} (hlen : m.length = m'.length) (a a' : Word32) :
    absorbAll (a ^^^ a') (xorMessages m m') = absorbAll a m ^^^ absorbAll a' m' := by
  induction m generalizing m' a a' with
  | nil =>
    obtain rfl : m' = [] := List.length_eq_zero_iff.mp hlen.symm
    rfl
  | cons b m ih =>
    cases m' with
    | nil => cases hlen
    | cons b' m' =>
      have hrec := ih (Nat.succ.inj hlen) (absorb a b) (absorb a' b')
      rwa [← absorb_xor] at hrec

theorem xorMessages_length {m m' : List Byte} (hlen : m.length = m'.length) : (xorMessages m m').length = m'.length := by
  simp [xorMessages, hlen]

/-- Settles O51: the fold of the three is linear, and the odd number of all-ones values leaves one. -/
theorem checkIsAffineOnThreeMessages : Obligations.CheckIsAffineOnThreeMessages := by
  unfold Obligations.CheckIsAffineOnThreeMessages
  intro a b c hab hbc
  have hinit : (Config.initValue ^^^ Config.initValue) ^^^ Config.initValue = Config.initValue := by decide
  have hfold : fold (xorMessages (xorMessages a b) c) = fold a ^^^ fold b ^^^ fold c := by
    unfold fold
    rw [← absorbAll_xorMessages hab, ← absorbAll_xorMessages ((xorMessages_length hab).trans hbc), hinit]
  have hout : (Config.xorOut ^^^ Config.xorOut) ^^^ Config.xorOut = Config.xorOut := by decide
  calc fold (xorMessages (xorMessages a b) c) ^^^ Config.xorOut
      = fold a ^^^ fold b ^^^ fold c ^^^ ((Config.xorOut ^^^ Config.xorOut) ^^^ Config.xorOut) := by rw [hfold, hout]
    _ = crc32 a ^^^ crc32 b ^^^ crc32 c := by
      simp only [crc32, finalXor]
      ac_rfl

end Sys2Proof.Machine

/-! The forms layer: the table, the equations and the most-significant-bit-first form agree with the bit form that the machine
runs (41_absorb.md rules R114, R115, R118, R121 and R122). -/

namespace Sys2Proof.Machine

/-- Settles O43: the nine checks, by evaluation. -/
theorem checkValuesAreThePrintedOnes : Obligations.CheckValuesAreThePrintedOnes := by
  unfold Obligations.CheckValuesAreThePrintedOnes
  decide +kernel

/-! ### The table (rules R114 and R115) -/

/-- The printed table is the table of eight bit steps, by evaluation of its 256 entries. -/
theorem tableEntry_eq_bitsteps : ∀ i : Byte, tableEntry i = bitsteps 8 (zext32 i) := by decide +kernel

/-- While only zeros are shifted out, bit steps are a shift. -/
theorem bitsteps_of_low_bits_clear {n : Nat} {u : Word32} (h : ∀ i < n, u.getLsbD i = false) : bitsteps n u = u >>> n := by
  induction n generalizing u with
  | zero => simp
  | succ n ih =>
    have hshift : ∀ i < n, (u >>> 1).getLsbD i = false := fun i hi => by
      rw [BitVec.getLsbD_ushiftRight]
      exact h (1 + i) (by omega)
    rw [bitsteps_succ, bitstep_of_bit_clear (h 0 n.succ_pos), ih hshift, ← BitVec.shiftRight_add, Nat.add_comm]

/-- A word is its upper 24 bits and its low byte. -/
theorem high_xor_low (u : Word32) : (u >>> 8 <<< 8) ^^^ zext32 (u.extractLsb' 0 8) = u := by
  ext i hi
  by_cases hlow : i < 8
  · simp [zext32, hlow, BitVec.getLsbD_eq_getElem hi]
  · have hback : 8 + (i - 8) = i := by omega
    simp [zext32, hlow, hback, BitVec.getLsbD_eq_getElem hi]

theorem ushiftRight_shiftLeft_ushiftRight (u : Word32) : u >>> 8 <<< 8 >>> 8 = u >>> 8 := by
  ext i hi
  by_cases hlow : 8 + i < 32
  · simp [hlow]
  · simp [hlow, BitVec.getLsbD_of_ge u (8 + i) (Nat.le_of_not_lt hlow)]

theorem zext32_ushiftRight (b : Byte) : zext32 b >>> 8 = 0#32 := by
  ext i hi
  simp [zext32]

/-- The upper 24 bits are only shifted, and the low byte is looked up. -/
theorem absorb_eq_tableAbsorb (a : Word32) (b : Byte) : absorb a b = tableAbsorb a b := by
  have hhigh (u : Word32) : bitsteps 8 (u >>> 8 <<< 8) = u >>> 8 := by
    rw [bitsteps_of_low_bits_clear (by simp +contextual), ushiftRight_shiftLeft_ushiftRight]
  have hbyte : (a ^^^ zext32 b) >>> 8 = a >>> 8 := by
    rw [BitVec.ushiftRight_xor_distrib, zext32_ushiftRight, BitVec.xor_zero]
  calc absorb a b = bitsteps 8 (a ^^^ zext32 b) := rfl
    _ = bitsteps 8 ((a ^^^ zext32 b) >>> 8 <<< 8) ^^^ bitsteps 8 (zext32 ((a ^^^ zext32 b).extractLsb' 0 8)) := by
      rw [← bitsteps_xor, high_xor_low]
    _ = tableAbsorb a b := by
      rw [hhigh, hbyte, ← tableEntry_eq_bitsteps, tableAbsorb]

/-- Settles O44: 256 entries evaluated, and linearity of the bit steps for every register. -/
theorem tableFormIsTheByteStep : Obligations.TableFormIsTheByteStep := by
  unfold Obligations.TableFormIsTheByteStep
  exact ⟨by decide +kernel, tableEntry_eq_bitsteps, absorb_eq_tableAbsorb⟩

/-! ### The equations (rule R121) -/

/-- A bit of the result that is linear over XOR. -/
def Linear (f : Word32 → Bool) : Prop := ∀ u v, f (u ^^^ v) = (f u ^^ f v)

theorem Linear.zero {f : Word32 → Bool} (hf : Linear f) : f 0#32 = false := by
  have h := hf 0#32 0#32
  rwa [BitVec.xor_self, Bool.xor_self] at h

/-- Linear bits that agree on the 32 words with one bit set agree on every word. -/
theorem Linear.eq_of_eq_on_bits {f g : Word32 → Bool} (hf : Linear f) (hg : Linear g)
    (h : ∀ k < 32, f (BitVec.twoPow 32 k) = g (BitVec.twoPow 32 k)) (u : Word32) : f u = g u := by
  suffices hlow : ∀ n ≤ 32, ∀ u : Word32, (∀ i, n ≤ i → u.getLsbD i = false) → f u = g u from
    hlow 32 le_rfl u fun i => u.getLsbD_of_ge i
  intro n
  induction n with
  | zero =>
    intro _ u hu
    obtain rfl : u = 0#32 := BitVec.eq_of_getLsbD_eq fun i _ => by simp [hu]
    rw [hf.zero, hg.zero]
  | succ n ih =>
    intro hn u hu
    have hn' : n ≤ 32 := Nat.le_of_succ_le hn
    cases hbit : u.getLsbD n with
    | false =>
      refine ih hn' u fun i hi => ?_
      obtain rfl | hlt := hi.eq_or_lt
      · exact hbit
      · exact hu i hlt
    | true =>
      have hrest : ∀ i, n ≤ i → (u ^^^ BitVec.twoPow 32 n).getLsbD i = false := by
        intro i hi
        obtain rfl | hlt := hi.eq_or_lt
        · simp [hbit, Nat.lt_of_succ_le hn]
        · simp [hu i hlt, hlt.ne]
      have hf' := hf u (BitVec.twoPow 32 n)
      have hg' := hg u (BitVec.twoPow 32 n)
      rw [ih hn' _ hrest, h n hn, hg'] at hf'
      exact (Bool.xor_left_inj.mp hf').symm

theorem linear_bitsteps (n i : Nat) : Linear fun u => (bitsteps n u).getLsbD i := by
  intro u v
  simp [bitsteps_xor]

theorem foldl_xor_bits (terms : List Nat) (u v : Word32) (x y : Bool) :
    terms.foldl (fun z j => z ^^ (u ^^^ v).getLsbD j) (x ^^ y) =
      (terms.foldl (fun z j => z ^^ u.getLsbD j) x ^^ terms.foldl (fun z j => z ^^ v.getLsbD j) y) := by
  induction terms generalizing x y with
  | nil => rfl
  | cons j terms ih =>
    have hswap : ((x ^^ y) ^^ (u ^^^ v).getLsbD j) = ((x ^^ u.getLsbD j) ^^ (y ^^ v.getLsbD j)) := by
      rw [BitVec.getLsbD_xor]
      simp only [Bool.xor_assoc, Bool.xor_left_comm]
    rw [List.foldl_cons, hswap, ih]
    rfl

theorem linear_equationBit (i : Nat) : Linear (equationBit · i) := by
  intro u v
  unfold equationBit
  exact foldl_xor_bits _ u v false false

/-- The 32 bits of eight bit steps of the 32 words with one bit set, by evaluation. -/
theorem bitsteps_eq_equationBit_on_bits :
    ∀ i < 32, ∀ k < 32, (bitsteps 8 (BitVec.twoPow 32 k)).getLsbD i = equationBit (BitVec.twoPow 32 k) i := by
  decide +kernel

/-- Settles O45: both sides are linear in `a xor b`. -/
theorem equationFormIsTheByteStep : Obligations.EquationFormIsTheByteStep := by
  unfold Obligations.EquationFormIsTheByteStep
  intro a b i hi
  exact (linear_bitsteps 8 i).eq_of_eq_on_bits (linear_equationBit i) (bitsteps_eq_equationBit_on_bits i hi) _

/-! ### The most-significant-bit-first form (rule R122) -/

theorem reverse_xor (x y : Word32) : (x ^^^ y).reverse = x.reverse ^^^ y.reverse := by
  ext i hi
  simp [BitVec.getElem_reverse]

theorem reverse_shiftLeft_one (x : Word32) : (x <<< 1).reverse = x.reverse >>> 1 := by
  refine BitVec.eq_of_getLsbD_eq fun i _ => ?_
  rw [BitVec.getLsbD_reverse, BitVec.getMsbD_shiftLeft, BitVec.getLsbD_ushiftRight, BitVec.getLsbD_reverse, Nat.add_comm]

theorem reverse_poly : Config.poly.reverse = Config.polyR := by decide +kernel

theorem reverse_msbStep (r : Word32) : (msbStep r).reverse = bitstep r.reverse := by
  have htop : r.reverse.getLsbD 0 = r.getLsbD 31 := BitVec.getLsbD_reverse
  unfold msbStep bitstep
  rw [htop]
  split
  · rw [reverse_xor, reverse_shiftLeft_one, reverse_poly]
  · rw [reverse_shiftLeft_one]

theorem reverse_msbSteps (n : Nat) (r : Word32) : (msbSteps n r).reverse = bitsteps n r.reverse := by
  induction n generalizing r with
  | zero => rfl
  | succ n ih =>
    have hsucc : msbSteps (n + 1) r = msbSteps n (msbStep r) := rfl
    rw [hsucc, ih, reverse_msbStep, bitsteps_succ]

/-- The reversed byte at the top is the byte at the bottom of the reversed register. -/
theorem reverse_top_byte : ∀ b : Byte, (zext32 b.reverse <<< 24).reverse = zext32 b := by decide +kernel

theorem reverse_msbAbsorb (r : Word32) (b : Byte) : (msbAbsorb r b).reverse = absorb r.reverse b := by
  rw [msbAbsorb, reverse_msbSteps, reverse_xor, reverse_top_byte, absorb]

/-- The reversed register is the fold at every byte boundary. -/
theorem reverse_foldl_msbAbsorb (r : Word32) (m : List Byte) : (m.foldl msbAbsorb r).reverse = absorbAll r.reverse m := by
  induction m generalizing r with
  | nil => rfl
  | cons b m ih => rw [List.foldl_cons, ih, reverse_msbAbsorb, absorbAll_cons]

theorem reverse_msbFold (m : List Byte) : (msbFold m).reverse = fold m := by
  have hinit : Config.initValue.reverse = Config.initValue := by decide +kernel
  rw [msbFold, reverse_foldl_msbAbsorb, hinit, fold]

/-- Settles O46: reversal carries each step of the one form to the step of the other. -/
theorem msbFirstFormComputesTheSameCheck : Obligations.MsbFirstFormComputesTheSameCheck := by
  unfold Obligations.MsbFirstFormComputesTheSameCheck
  exact fun m => ⟨by rw [crc32Msb, reverse_msbFold]; rfl, reverse_msbFold m⟩

end Sys2Proof.Machine

/-! The polynomial layer: the register as a polynomial over the two-element field, each bit step being a multiplication by `x`
modulo the generator (41_absorb.md rule R123). -/

namespace Sys2Proof.Machine

open Polynomial

/-- The polynomial of a register: bit `i` is the coefficient of `x^(31-i)`. -/
noncomputable def registerPoly (u : Word32) : (ZMod 2)[X] :=
  ∑ i ∈ Finset.range 32, if u.getLsbD i then X ^ (31 - i) else 0

/-- The generator polynomial `G(x)`. -/
noncomputable def generatorPoly : (ZMod 2)[X] :=
  X ^ 32 + X ^ 26 + X ^ 23 + X ^ 22 + X ^ 16 + X ^ 12 + X ^ 11 + X ^ 10 + X ^ 8 + X ^ 7 + X ^ 5 + X ^ 4 + X ^ 2 + X + 1

/-- The polynomial `D(x)` of a message, its bits in order from the highest power down. -/
noncomputable def messagePoly (m : List Byte) : (ZMod 2)[X] :=
  ∑ k ∈ Finset.range (8 * m.length),
    if (m.getD (k / 8) 0#8).getLsbD (k % 8) then X ^ (8 * m.length - 1 - k) else 0

/-- The polynomial `I(x)` of the initial value. -/
noncomputable def initPoly : (ZMod 2)[X] := ∑ k ∈ Finset.range 32, X ^ k

/-! ### The polynomial of a register -/

theorem registerPoly_xor (u v : Word32) : registerPoly (u ^^^ v) = registerPoly u + registerPoly v := by
  unfold registerPoly
  rw [← Finset.sum_add_distrib]
  refine Finset.sum_congr rfl fun i _ => ?_
  rw [BitVec.getLsbD_xor]
  cases u.getLsbD i <;> cases v.getLsbD i <;> simp [CharTwo.add_self_eq_zero]

theorem registerPoly_zero : registerPoly 0#32 = 0 := by
  simp [registerPoly]

theorem degree_registerPoly_lt (u : Word32) : (registerPoly u).degree < (32 : ℕ) := by
  rw [← mem_degreeLT]
  refine Submodule.sum_mem _ fun i _ => ?_
  rw [mem_degreeLT]
  split
  · rw [degree_X_pow]
    exact Nat.cast_lt.mpr (by omega)
  · rw [degree_zero]
    exact WithBot.bot_lt_coe _

theorem registerPoly_initValue : registerPoly Config.initValue = initPoly := by
  unfold registerPoly initPoly
  rw [← Finset.sum_range_reflect]
  refine Finset.sum_congr rfl fun i hi => ?_
  have hi : i < 32 := Finset.mem_range.mp hi
  have hones : Config.initValue = BitVec.allOnes 32 := rfl
  have hbit : (Config.initValue).getLsbD (32 - 1 - i) = true := by
    rw [hones, BitVec.getLsbD_allOnes]
    exact decide_eq_true (by omega)
  have hexp : 31 - (32 - 1 - i) = i := by omega
  rw [if_pos hbit, hexp]

/-- The generator is `x^32` and the reflected polynomial of the bit step. -/
theorem generatorPoly_eq : generatorPoly = X ^ 32 + registerPoly Config.polyR := by
  simp [registerPoly, generatorPoly, Finset.sum_range_succ, Config.polyR]
  ring

theorem monic_generatorPoly : generatorPoly.Monic := by
  rw [generatorPoly_eq]
  exact monic_X_pow_add (degree_registerPoly_lt _)

theorem degree_generatorPoly : generatorPoly.degree = (32 : ℕ) := by
  rw [generatorPoly_eq, degree_add_eq_left_of_degree_lt, degree_X_pow]
  rw [degree_X_pow]
  exact degree_registerPoly_lt _

/-- Multiplication by `x` shifts the register and carries bit 0 into `x^32`. -/
theorem X_mul_registerPoly (u : Word32) :
    X * registerPoly u = (if u.getLsbD 0 then X ^ 32 else 0) + registerPoly (u >>> 1) := by
  have htop : (u >>> 1).getLsbD 31 = false := by simp
  have hlow (i : ℕ) (hi : i ∈ Finset.range 31) :
      (X * if u.getLsbD (i + 1) then X ^ (31 - (i + 1)) else 0 : (ZMod 2)[X]) =
        if (u >>> 1).getLsbD i then X ^ (31 - i) else 0 := by
    have hexp : 31 - i = 31 - (i + 1) + 1 := by
      rw [Finset.mem_range] at hi
      omega
    rw [BitVec.getLsbD_ushiftRight, Nat.add_comm 1 i, mul_ite, mul_zero, hexp, pow_succ']
  have hu : registerPoly u = (∑ i ∈ Finset.range 31, if u.getLsbD (i + 1) then X ^ (31 - (i + 1)) else 0) +
      if u.getLsbD 0 then X ^ 31 else 0 := Finset.sum_range_succ' _ 31
  have hshift : registerPoly (u >>> 1) = ∑ i ∈ Finset.range 31, if (u >>> 1).getLsbD i then X ^ (31 - i) else 0 := by
    rw [registerPoly, Finset.sum_range_succ, htop, if_neg Bool.false_ne_true, add_zero]
  rw [hu, hshift, mul_add, Finset.mul_sum, Finset.sum_congr rfl hlow, mul_ite, mul_zero, ← pow_succ', add_comm]

/-! ### Bit steps modulo the generator -/

/-- Modulo `G(x)` a bit step is a multiplication by `x`. -/
theorem mk_registerPoly_bitstep (u : Word32) :
    AdjoinRoot.mk generatorPoly (registerPoly (bitstep u)) = AdjoinRoot.mk generatorPoly (X * registerPoly u) := by
  rw [bitstep_eq_xor, registerPoly_xor, X_mul_registerPoly]
  cases u.getLsbD 0 with
  | false => simp [registerPoly_zero]
  | true =>
    have hsplit : X ^ 32 + registerPoly (u >>> 1) =
        registerPoly (u >>> 1) + registerPoly Config.polyR + generatorPoly := by
      rw [generatorPoly_eq]
      linear_combination (-registerPoly Config.polyR) * CharTwo.two_eq_zero (R := (ZMod 2)[X])
    rw [if_pos rfl, if_pos rfl, hsplit, map_add _ _ generatorPoly, AdjoinRoot.mk_self, add_zero]

theorem mk_registerPoly_bitsteps (n : Nat) (u : Word32) :
    AdjoinRoot.mk generatorPoly (registerPoly (bitsteps n u)) =
      AdjoinRoot.mk generatorPoly (X ^ n * registerPoly u) := by
  induction n generalizing u with
  | zero => simp
  | succ n ih => 
    rw [bitsteps_succ, ih, map_mul, mk_registerPoly_bitstep, ← map_mul, ← mul_assoc, pow_succ]

/-! ### The fold of a message -/

/-- The dividend of the rule. -/
noncomputable def dividend (m : List Byte) : (ZMod 2)[X] := messagePoly m * X ^ 32 + initPoly * X ^ (8 * m.length)

theorem registerPoly_zext32 (b : Byte) :
    registerPoly (zext32 b) = ∑ j ∈ Finset.range 8, if b.getLsbD j then X ^ (31 - j) else 0 := by
  have hrest : ∀ i ∈ Finset.range 32, i ∉ Finset.range 8 →
      (if (zext32 b).getLsbD i then X ^ (31 - i) else 0 : (ZMod 2)[X]) = 0 := by
    intro i _ hi
    have hbit : b.getLsbD i = false := b.getLsbD_of_ge i (by simpa using hi)
    simp [zext32, hbit]
  rw [registerPoly, ← Finset.sum_subset (Finset.range_subset_range.mpr (by decide)) hrest]
  refine Finset.sum_congr rfl fun j hj => ?_
  have hj' : j < 32 := (Finset.mem_range.mp hj).trans (by decide)
  simp [zext32, hj']

/-- One byte more multiplies the message by `x^8` and adds the byte's polynomial. -/
theorem messagePoly_concat (m : List Byte) (b : Byte) :
    messagePoly (m ++ [b]) = X ^ 8 * messagePoly m + ∑ j ∈ Finset.range 8, if b.getLsbD j then X ^ (7 - j) else 0 := by
  have hlen : 8 * (m ++ [b]).length = 8 * m.length + 8 := by rw [List.length_append]; rfl
  unfold messagePoly
  rw [hlen, Finset.sum_range_add, Finset.mul_sum]
  congr 1
  · refine Finset.sum_congr rfl fun k hk => ?_
    rw [Finset.mem_range] at hk
    have hexp : 8 * m.length + 8 - 1 - k = 8 + (8 * m.length - 1 - k) := by omega
    rw [List.getD_append _ _ _ _ (by omega), mul_ite, mul_zero, hexp, pow_add]
  · refine Finset.sum_congr rfl fun j hj => ?_
    rw [Finset.mem_range] at hj
    have hpos : (8 * m.length + j) / 8 = m.length := by omega
    have hbit : (8 * m.length + j) % 8 = j := by omega
    have hexp : 8 * m.length + 8 - 1 - (8 * m.length + j) = 7 - j := by omega
    rw [hpos, hbit, hexp, List.getD_append_right _ _ _ _ le_rfl, Nat.sub_self]
    rfl

theorem byteSum_mul (b : Byte) :
    (∑ j ∈ Finset.range 8, if b.getLsbD j then X ^ (7 - j) else 0 : (ZMod 2)[X]) * X ^ 32 =
      X ^ 8 * registerPoly (zext32 b) := by
  rw [registerPoly_zext32, Finset.sum_mul, Finset.mul_sum]
  refine Finset.sum_congr rfl fun j hj => ?_
  have hexp : 7 - j + 32 = 8 + (31 - j) := by
    rw [Finset.mem_range] at hj
    omega
  rw [ite_mul, mul_ite, zero_mul, mul_zero, ← pow_add, ← pow_add, hexp]

theorem dividend_concat (m : List Byte) (b : Byte) :
    dividend (m ++ [b]) = X ^ 8 * (dividend m + registerPoly (zext32 b)) := by
  unfold dividend
  rw [messagePoly_concat, add_mul, byteSum_mul, List.length_append, List.length_singleton]
  ring

theorem mk_dividend (m : List Byte) :
    AdjoinRoot.mk generatorPoly (dividend m) = AdjoinRoot.mk generatorPoly (registerPoly (fold m)) := by
  induction m using List.reverseRecOn with
  | nil => 
    have hfold : fold [] = Config.initValue := rfl
    rw [hfold, registerPoly_initValue]
    simp [dividend, messagePoly]
  | append_singleton m b ih =>
    rw [fold_concat, absorb, mk_registerPoly_bitsteps, registerPoly_xor, dividend_concat, map_mul, map_add, ih, ← map_add, ← map_mul]

/-- Settles O47: both sides are equal modulo the generator, and the right one has a lower degree. -/
theorem foldIsThePolynomialRemainder : Obligations.FoldIsThePolynomialRemainder := by
  unfold Obligations.FoldIsThePolynomialRemainder
  intro m
  have hself : registerPoly (fold m) %ₘ generatorPoly = registerPoly (fold m) := by
    rw [modByMonic_eq_self_iff monic_generatorPoly, degree_generatorPoly]
    exact degree_registerPoly_lt _
  have hmod : dividend m %ₘ generatorPoly = registerPoly (fold m) %ₘ generatorPoly :=
    modByMonic_eq_of_dvd_sub monic_generatorPoly (AdjoinRoot.mk_eq_mk.mp (mk_dividend m))
  exact hmod.trans hself

end Sys2Proof.Machine

/-! The sequence layer: what a list of commands answers, command by command, and the runs of whole records (00_scope.md rule
R12; 42_generate.md rules R131 and R132; 43_verify.md rules R141 to R144). -/

namespace Sys2Proof.Machine

/-! ### Answers: the responses to a list of commands and the registers after it -/

/-- The commands `cs`, one after another from `s`, are answered with the words `ws` and leave the registers of `t`. The states
stand for their registers: the responses are listed in `ws`, and `output` stays as it was in `s`. -/
inductive Answers : List Instr → List RspWord → State → State → Prop
  | nil (s : State) : Answers [] [] s s
  | cons {i : Instr} {r : Response} {cs : List Instr} {ws : List RspWord} {s u t : State}
      (hexec : exec i s = .next (respond r u)) (hout : u.output = s.output) (hcs : Answers cs ws u t) : Answers (i :: cs) (responseWord r :: ws) s t

namespace Answers

variable {cs ds : List Instr} {ws vs : List RspWord} {s t u : State}

theorem single {i : Instr} {r : Response} (hexec : exec i s = .next (respond r t)) (hout : t.output = s.output) :
    Answers [i] [responseWord r] s t :=
  cons hexec hout (nil t)

theorem append (h : Answers cs ws s t) (h' : Answers ds vs t u) : Answers (cs ++ ds) (ws ++ vs) s u := by
  induction h with
  | nil s => exact h'
  | cons hexec hout _ ih => exact cons hexec hout (ih h')

theorem length_eq (h : Answers cs ws s t) : ws.length = cs.length := by
  induction h with
  | nil s => rfl
  | cons _ _ _ ih => rw [List.length_cons, List.length_cons, ih]

theorem output_eq (h : Answers cs ws s t) : t.output = s.output := by
  induction h with
  | nil s => rfl
  | cons _ hout _ ih => rw [ih, hout]

end Answers

/-! ### From answers to runs -/

theorem runCommands_cons {i : Instr} {s u : State} (h : exec i s = .next u) (cs : List Instr) :
    runCommands (i :: cs) s = runCommands cs u :=
  runEvents_cons ((acceptWord_legal (decode_encode i) s).trans h)

/-- A command answers the same whatever was answered before it. -/
theorem exec_with_output {i : Instr} {r : Response} {s t : State} (hout : t.output = s.output)
    (h : exec i s = .next (respond r t)) (o : List RspWord) :
    exec i { s with output := o } = .next (respond r { t with output := o }) := by
  obtain ⟨u, hu, _⟩ := exec_effect i { s with output := [] }
  have hstart (o : List RspWord) : afterResponses o { s with output := [] } = { s with output := o } := by
    simp [afterResponses]
  have hrun (o : List RspWord) : exec i { s with output := o } = .next (afterResponses o u) :=
    hstart o ▸ exec_afterResponses hu o
  have ht : respond r t = afterResponses s.output u := Host.Outcome.next.inj (h.symm.trans (hrun s.output))
  rw [hrun o]
  cases t
  cases u
  simp only [respond, afterResponses, State.mk.injEq, Host.Outcome.next.injEq] at hout ht ⊢
  subst hout
  simp_all

theorem Answers.runCommands_eq {cs : List Instr} {ws : List RspWord} {s t : State} (h : Answers cs ws s t)
    (o : List RspWord) : runCommands cs { s with output := o } = .next { t with output := o ++ ws } := by
  induction h generalizing o with
  | nil s => simp [runCommands]
  | @cons i r cs ws s u t hexec hout _ ih =>
    have hnext := exec_with_output hout hexec o
    have hrespond : respond r { u with output := o } = { u with output := o ++ [responseWord r] } := rfl
    rw [runCommands_cons hnext, hrespond, ih, List.append_assoc, List.singleton_append]

/-- The run of the commands ends in the state after the answers, the answers put after the earlier responses. -/
theorem Answers.run {cs : List Instr} {ws : List RspWord} {s t : State} (h : Answers cs ws s t) :
    runCommands cs s = .next { t with output := s.output ++ ws } :=
  h.runCommands_eq s.output

/-! ### `NOP`s anywhere (40_control.md rule R96) -/

/-- Without `RST` there is no way out of phase `FAULT`. -/
theorem Answers.stays_in_fault {cs : List Instr} {ws : List RspWord} {s t : State} (h : Answers cs ws s t)
    (hcs : Instr.rst ∉ cs) (hs : s.ph = .fault) : t.ph = .fault := by
  induction h with
  | nil s => exact hs
  | @cons i r cs ws s u t hexec _ _ ih =>
    simp only [List.mem_cons, not_or] at hcs
    obtain ⟨hi, hcs⟩ := hcs
    refine ih hcs ?_
    have heq := Host.Outcome.next.inj (hexec.symm.trans (exec_of_fault (Ne.symm hi) hs))
    have hph : (respond r u).ph = (answerFault s).ph := congrArg State.ph heq
    exact hph.trans hs

/-- `NOP`s put into a list that does not end in phase `FAULT` change nothing but that each is answered `ACK`. -/
theorem Answers.insert_nops {cs : List Instr} {vs : List RspWord} {s t : State} (h : Answers (withoutNops cs) vs s t)
    (hcs : Instr.rst ∉ withoutNops cs) (ht : t.ph ≠ .fault) :
    ∃ ws, Answers cs ws s t ∧ answersButNop cs ws = vs ∧ ∀ p ∈ cs.zip ws, p.1 = .nop → p.2 = 0x0000#16 := by
  induction cs generalizing s vs with
  | nil =>
    cases h
    exact ⟨[], .nil t, rfl, nofun⟩
  | cons i cs ih =>
    by_cases hi : i = .nop
    · subst hi
      have hskip : withoutNops (.nop :: cs) = withoutNops cs := rfl
      rw [hskip] at h hcs
      obtain ⟨ws, hws, hbut, hack⟩ := ih h hcs
      have hs : s.ph ≠ .fault := fun hs => ht (h.stays_in_fault hcs hs)
      refine ⟨0x0000#16 :: ws, .cons (exec_nop_of_ne_fault hs) rfl hws, hbut, ?_⟩
      simpa using hack
    · have hkeep : withoutNops (i :: cs) = i :: withoutNops cs := by simp [withoutNops, hi]
      rw [hkeep] at h hcs
      cases h with
      | @cons _ r _ vs _ u _ hexec hout hrest =>
        obtain ⟨ws, hws, hbut, hack⟩ := ih hrest (List.not_mem_of_not_mem_cons hcs)
        refine ⟨responseWord r :: ws, .cons hexec hout hws, ?_, ?_⟩
        · simpa [answersButNop, hi] using hbut
        · simpa [hi] using hack

/-- If all other commands are answered `ACK` too, every response is. -/
theorem eq_replicate_of_answersButNop {cs : List Instr} {ws : List RspWord} {n : Nat} (hlen : ws.length = cs.length)
    (hbut : answersButNop cs ws = List.replicate n 0x0000#16) (hack : ∀ p ∈ cs.zip ws, p.1 = .nop → p.2 = 0x0000#16) :
    ws = List.replicate cs.length 0x0000#16 := by
  refine List.eq_replicate_iff.mpr ⟨hlen, fun w hw => ?_⟩
  obtain ⟨k, hk, rfl⟩ := List.mem_iff_getElem.mp hw
  have hk' : k < cs.length := hlen ▸ hk
  have hmem : (cs[k], ws[k]) ∈ cs.zip ws := List.mem_iff_getElem.mpr ⟨k, by simp [hk, hk'], by simp⟩
  by_cases hi : cs[k] = .nop
  · exact hack _ hmem hi
  · have hbutmem : ws[k] ∈ answersButNop cs ws :=
      List.mem_map.mpr ⟨_, List.mem_filter.mpr ⟨hmem, decide_eq_true hi⟩, rfl⟩
    rw [hbut] at hbutmem
    exact List.eq_of_mem_replicate hbutmem

/-! ### The parts of a record -/

theorem answers_opens {i : Instr} {p : Phase} {s : State} (hi : Opens i p) (hph : s.ph ∈ betweenRecords) :
    Answers [i] [0x0000#16] s (openRecord p s) :=
  .single (hi.exec_between hph) rfl

theorem answers_feedAll (m : List Byte) {s : State} (hph : s.ph ∈ [Phase.gmsg, .vmsg]) :
    Answers (feedAll m) (List.replicate m.length 0x0000#16) s { s with acc := absorbAll s.acc m } := by
  induction m generalizing s with
  | nil => exact .nil s
  | cons b m ih => exact .cons (exec_feed_message hph) rfl (ih hph)

/-- A command that opens a record, and the bytes of a message. -/
theorem answers_open_feedAll {i : Instr} {p : Phase} {s : State} (hi : Opens i p) (hph : s.ph ∈ betweenRecords)
    (m : List Byte) :
    Answers (i :: feedAll m) (List.replicate (m.length + 1) 0x0000#16) s
      { s with acc := fold m, exp := 0x00000000#32, idx := 0#2, ph := p } := by
  have hp : p ∈ [Phase.gmsg, .vmsg] := by obtain ⟨_, rfl⟩ | ⟨_, rfl⟩ := hi <;> simp
  exact (answers_opens hi hph).append (answers_feedAll m (s := openRecord p s) hp)

theorem answers_emit {s : State} (hph : s.ph ∈ [Phase.gmsg, .gout]) (hidx : s.idx ≠ 3#2) :
    Answers [.emit] [byteWord (checkByte (finalXor s.acc) s.idx)] s { s with idx := s.idx + 1#2, ph := .gout } := by
  have hexec := exec_emit_generating hph
  rw [afterEmit_of_ne_last hidx] at hexec
  rw [byteWord, ← responseWord_byte]
  exact .single hexec rfl

theorem answers_emit_last {s : State} (hph : s.ph ∈ [Phase.gmsg, .gout]) (hidx : s.idx = 3#2) :
    Answers [.emit] [byteWord (checkByte (finalXor s.acc) s.idx)] s { s with idx := 0#2, ph := .gdone } := by
  have hexec := exec_emit_generating hph
  rw [afterEmit_of_last hidx] at hexec
  rw [byteWord, ← responseWord_byte]
  exact .single hexec rfl

/-- The four check bytes go out in wire order, and the record ends. -/
theorem answers_emitFour {s : State} (hph : s.ph = .gmsg) (hidx : s.idx = 0#2) :
    Answers emitFour ((wireBytes (finalXor s.acc)).map byteWord) s { s with idx := 0#2, ph := .gdone } := by
  obtain ⟨acc, exp, idx, ph, cause, input, output⟩ := s
  subst hph hidx
  have h0 := answers_emit (s := ⟨acc, exp, 0#2, .gmsg, cause, input, output⟩) (by simp) (by simp)
  have h1 := answers_emit (s := ⟨acc, exp, 1#2, .gout, cause, input, output⟩) (by simp) (by simp)
  have h2 := answers_emit (s := ⟨acc, exp, 2#2, .gout, cause, input, output⟩) (by simp) (by simp)
  have h3 := answers_emit_last (s := ⟨acc, exp, 3#2, .gout, cause, input, output⟩) (by simp) rfl
  exact h0.append (h1.append (h2.append h3))

/-! ### Generating (42_generate.md) -/

theorem answers_generateSequence (m : List Byte) {s : State} (hph : s.ph ∈ betweenRecords) :
    Answers (generateSequence m) (List.replicate (m.length + 1) 0x0000#16 ++ (wireBytes (crc32 m)).map byteWord) s
      { s with acc := fold m, exp := 0x00000000#32, idx := 0#2, ph := .gdone } := by
  have hopen := answers_open_feedAll opens_gen hph m
  have hemit := answers_emitFour (s := { s with acc := fold m, exp := 0x00000000#32, idx := 0#2, ph := .gmsg }) rfl rfl
  exact hopen.append hemit

theorem rst_not_mem_feedAll (m : List Byte) : Instr.rst ∉ feedAll m := by
  simp [feedAll]

/-- Settles O52: the sequence without `NOP`s, `NOP`s put in, and `CAUSE` 0 by the invariant. -/
theorem generateSequenceDeliversTheCheck : Obligations.GenerateSequenceDeliversTheCheck := by
  unfold Obligations.GenerateSequenceDeliversTheCheck
  intro m cs s hs hph hcs
  have hf : s.ph ≠ .fault := by
    intro hf
    simp [hf, betweenRecords] at hph
  have hcause := hs.cause_eq_zero hf
  have hrst : Instr.rst ∉ withoutNops cs := by
    rw [hcs]
    simp [generateSequence, rst_not_mem_feedAll, emitFour]
  obtain ⟨ws, hws, hbut, hack⟩ := Answers.insert_nops (hcs ▸ answers_generateSequence m hph) hrst (by simp)
  refine ⟨ws, ?_, hws.length_eq, hbut, hack⟩
  rw [hws.run, hcause]

/-- Settles O53: the record opened and fed, and `END` after it. -/
theorem valueOnlyGenerationShowsTheCheck : Obligations.ValueOnlyGenerationShowsTheCheck := by
  unfold Obligations.ValueOnlyGenerationShowsTheCheck
  intro m s hph
  have hfed := (answers_open_feedAll opens_gen hph m).run
  have hend {t : State} (ht : t.ph = .gmsg) : Answers [.endInput] [0x0000#16] t { t with ph := .gdone } :=
    .single (exec_endInput_gmsg ht) rfl
  refine ⟨_, _, hfed, rfl, rfl, (hend rfl).run, rfl, rfl, ?_⟩
  simp [List.replicate_succ']

/-! ### Verifying (43_verify.md) -/

/-- A state in which the record of `m` is being verified and the bytes `stored` of its check have been taken. -/
def verifying (m stored : List Byte) (s : State) : State :=
  { s with acc := fold m, exp := stored.foldl shiftIn 0#32, idx := BitVec.ofNat 2 stored.length,
           ph := if stored = [] then .vmsg else .vchk }

theorem verifying_ph_mem (m stored : List Byte) (s : State) : (verifying m stored s).ph ∈ [Phase.vmsg, .vchk] := by
  unfold verifying
  dsimp only
  split <;> simp

theorem verifying_idx_toNat (m : List Byte) {stored : List Byte} (s : State) (hlen : stored.length ≤ 3) :
    (verifying m stored s).idx.toNat = stored.length := by
  rw [verifying, BitVec.toNat_ofNat]
  omega

/-- One of the first three stored bytes. -/
theorem answers_chk_verifying (m : List Byte) {stored : List Byte} (s : State) (hlen : stored.length ≤ 2) (b : Byte) :
    Answers [.chk b] [0x0000#16] (verifying m stored s) (verifying m (stored ++ [b]) s) := by
  have hidx : (verifying m stored s).idx ≠ 3#2 := by
    intro h
    have hthree := verifying_idx_toNat m s (hlen.trans (by decide))
    rw [h] at hthree
    exact absurd (hthree.trans_le hlen) (by decide)
  have hexec := exec_chk_verifying (b := b) (verifying_ph_mem m stored s)
  rw [takeCheckByte_of_ne_last hidx] at hexec
  have hnext : verifying m (stored ++ [b]) s = { verifying m stored s with
      exp := shiftIn (verifying m stored s).exp b, idx := (verifying m stored s).idx + 1#2, ph := .vchk } := by
    simp [verifying, BitVec.ofNat_add]
  rw [hnext]
  exact .single hexec rfl

theorem answers_verifySequence (m stored : List Byte) {s : State} (hph : s.ph ∈ betweenRecords) (hlen : stored.length ≤ 3) :
    Answers (verifySequence m stored) (List.replicate (m.length + 1 + stored.length) 0x0000#16) s (verifying m stored s) := by
  induction stored using List.reverseRecOn with
  | nil =>
    simpa [verifySequence, verifying] using answers_open_feedAll opens_ver hph m
  | append_singleton stored b ih =>
    rw [List.length_append, List.length_singleton] at hlen ⊢
    have hlen' : stored.length ≤ 2 := Nat.le_of_succ_le_succ hlen
    have hnext := (ih (hlen'.trans (by decide))).append (answers_chk_verifying m s hlen' b)
    have hcs : verifySequence m (stored ++ [b]) = verifySequence m stored ++ [.chk b] := by simp [verifySequence]
    rwa [← List.replicate_succ', ← hcs] at hnext

/-- Settles O54: the sequence up to the third stored byte, `NOP`s put in, and the comparison after the fourth. -/
theorem verifySequencePassesExactlyOnTheCheck : Obligations.VerifySequencePassesExactlyOnTheCheck := by
  unfold Obligations.VerifySequencePassesExactlyOnTheCheck
  intro m s0 s1 s2 s3 cs s hph hcs
  have hrst : Instr.rst ∉ withoutNops cs := by
    rw [hcs]
    simp [verifySequence, rst_not_mem_feedAll]
  obtain ⟨ws, hws, hbut, hack⟩ :=
    Answers.insert_nops (hcs ▸ answers_verifySequence m [s0, s1, s2] hph le_rfl) hrst (by simp [verifying])
  obtain rfl := eq_replicate_of_answersButNop hws.length_eq hbut hack
  have hexec := exec_chk_verifying (b := s3) (verifying_ph_mem m [s0, s1, s2] s)
  rw [takeCheckByte_of_last rfl] at hexec
  have hexp : shiftIn (verifying m [s0, s1, s2] s).exp s3 = bigEndian s0 s1 s2 s3 := foldl_shiftIn_four 0#32 s0 s1 s2 s3
  rw [hexp] at hexec
  simp only [List.append_assoc]
  split_ifs with heq
  · rw [compareCheck_of_eq heq] at hexec
    exact (hws.append (.single hexec rfl)).run
  · rw [compareCheck_of_ne heq, raise] at hexec
    exact (hws.append (.single hexec rfl)).run

/-- The verify sequence of four stored bytes, without `NOP`s. -/
theorem runCommands_verifySequence (m : List Byte) (s0 s1 s2 s3 : Byte) {s : State} (hph : s.ph ∈ betweenRecords) :
    ∃ t, runCommands (verifySequence m [s0, s1, s2, s3]) s = .next t ∧
      if bigEndian s0 s1 s2 s3 = crc32 m then
        t.ph = .vpass ∧ t.output = s.output ++ List.replicate (m.length + 4) 0x0000#16 ++ [0x2000#16]
      else t.ph = .fault ∧ t.cause = 2#3 := by
  have hcs : verifySequence m [s0, s1, s2, s3] = verifySequence m [s0, s1, s2] ++ [.chk s3] := by simp [verifySequence]
  have hnops : withoutNops (verifySequence m [s0, s1, s2]) = verifySequence m [s0, s1, s2] := by
    simp [withoutNops, verifySequence, feedAll]
  have hlen : (verifySequence m [s0, s1, s2]).length = m.length + 4 := by simp [verifySequence, feedAll]
  have hrun := verifySequencePassesExactlyOnTheCheck m s0 s1 s2 s3 _ s hph hnops
  rw [hlen] at hrun
  refine ⟨_, hcs ▸ hrun, ?_⟩
  split_ifs with heq <;> exact ⟨rfl, rfl⟩

theorem byteWord_setWidth (b : Byte) : (byteWord b).setWidth 8 = b := BitVec.setWidth_append_eq_right

/-- Settles O55: the bytes after the `ACK`s are the wire bytes of the check. -/
theorem generatedCheckVerifies : Obligations.GeneratedCheckVerifies := by
  unfold Obligations.GeneratedCheckVerifies
  intro m s s' t hph hph' hgen
  obtain rfl := Host.Outcome.next.inj (hgen.symm.trans (answers_generateSequence m hph).run)
  have hbytes : ((s.output ++ (List.replicate (m.length + 1) 0x0000#16 ++ (wireBytes (crc32 m)).map byteWord)).drop
      (s.output.length + m.length + 1)).map (fun w => w.setWidth 8) = wireBytes (crc32 m) := by
    rw [← List.append_assoc, List.drop_left' (by simp [Nat.add_assoc]), List.map_map]
    simp [Function.comp_def, byteWord_setWidth]
  obtain ⟨t', hrun, hout⟩ := runCommands_verifySequence m _ _ _ _ hph'
  rw [if_pos (bigEndian_wireBytes (crc32 m))] at hout
  obtain ⟨hpass, hresp⟩ := hout
  refine ⟨t', ?_, ?_, hresp⟩
  · dsimp only
    rw [hbytes]
    exact hrun
  · simp [passed, hpass]

/-- A verification of stored bytes that are not the check is reported. -/
theorem verify_reports_mismatch {m stored : List Byte} {s : State} (hlen : stored.length = 4)
    (hne : stored ≠ wireBytes (crc32 m)) (hph : s.ph ∈ betweenRecords) :
    ∃ t, runCommands (verifySequence m stored) s = .next t ∧ t.ph = .fault ∧ t.cause = 2#3 := by
  obtain ⟨b0, b1, b2, b3, rfl⟩ := List.length_eq_four.mp hlen
  obtain ⟨t, hrun, hout⟩ := runCommands_verifySequence m b0 b1 b2 b3 hph
  rw [if_neg fun heq => hne ((bigEndian_eq_iff _ _ _ _ _).mp heq)] at hout
  exact ⟨t, hrun, hout⟩

/-- Settles O56: an altered byte alters the check, so in both cases the stored bytes are not the check of the message. -/
theorem corruptionIsReportedNeverPassed : Obligations.CorruptionIsReportedNeverPassed := by
  unfold Obligations.CorruptionIsReportedNeverPassed
  refine ⟨fun m i h c s hc hph => ?_, fun m stored s hlen hne hph => verify_reports_mismatch hlen hne hph⟩
  obtain ⟨_, _, hcrc⟩ := oneAlteredByteChangesTheCheck m i h c hc
  exact verify_reports_mismatch rfl (fun heq => hcrc (wireBytes_injective heq).symm) hph

/-! ### Truncation (43_verify.md rule R144) -/

theorem foldl_shiftIn_toNat (stored : List Byte) (e : Word32) :
    (stored.foldl shiftIn e).toNat = stored.foldl (fun n b => 256 * n + b.toNat) e.toNat % 2 ^ 32 := by
  induction stored using List.reverseRecOn with
  | nil => exact (Nat.mod_eq_of_lt e.isLt).symm
  | append_singleton stored b ih =>
    simp only [List.foldl_append, List.foldl_cons, List.foldl_nil]
    rw [shiftIn_toNat, ih]
    omega

theorem foldl_bigEndian_lt (stored : List Byte) :
    stored.foldl (fun n b => 256 * n + b.toNat) 0 < 256 ^ stored.length := by
  induction stored using List.reverseRecOn with
  | nil => simp
  | append_singleton stored b ih =>
    rw [List.foldl_append, List.length_append, List.length_singleton, Nat.pow_succ]
    have hb := b.isLt
    simp only [List.foldl_cons, List.foldl_nil]
    omega

/-- Settles O57: `END` in a record being verified raises FormatError and keeps what was taken. -/
theorem truncationIsFormatError : Obligations.TruncationIsFormatError := by
  unfold Obligations.TruncationIsFormatError
  intro m stored s hlen hph
  have hexec := exec_endInput_verifying (verifying_ph_mem m stored s)
  rw [raise] at hexec
  have hrun := ((answers_verifySequence m stored hph hlen).append (.single hexec rfl)).run
  refine ⟨_, hrun, rfl, rfl, rfl, verifying_idx_toNat m s hlen, ?_, (List.append_assoc _ _ _).symm⟩
  have hexp : (verifying m stored s).exp.toNat = _ := foldl_shiftIn_toNat stored 0#32
  have hbound := (foldl_bigEndian_lt stored).trans_le (Nat.pow_le_pow_right (by decide) hlen)
  exact hexp.trans (Nat.mod_eq_of_lt (hbound.trans (by decide)))

end Sys2Proof.Machine
